-- ==== Sys2Proof/Word.lean ====
section
/-! DEFINITION. The word type: every raw byte, scan code and output code is one byte (20_memory.md R43,
00_scope.md R8). -/

namespace Sys2Proof

/-- Eight bits; bit 0 is the least significant (00_scope.md R13). -/
abbrev Byte := BitVec 8

end Sys2Proof
end

