-- ==== Sys2Proof/Config.lean ====
section
/-! DEFINITION. The build-time parameters of 00_scope.md R4 to R9. They are no state of the block: a step never
changes them (notes/assumptions/1.md). -/

namespace Sys2Proof

/-- EDGE_POL (R6): which transition of the clock line is an edge event. -/
inductive EdgePol where
  | falling
  | rising
deriving DecidableEq, Repr

/-- The parameters fixed when the hardware is built (R4 to R9). -/
structure Config where
  /-- IW = log2 C: the width of `head` and `tail` (R4). -/
  iw : Nat
  /-- TIMEOUT_US, in Edge Clock counts (R5). -/
  timeoutUs : Nat
  /-- EDGE_POL (R6); no rule of an EDGE step reads it. -/
  edgePol : EdgePol
  /-- TW, the width of the Edge Clock and of `t_last` (R7). -/
  tw : Nat
  /-- LUTN (R8): the mapped entries; an absent entry reads 0. -/
  lutN : List Host.Cell
  /-- LUTE (R8): the mapped entries; an absent entry reads 0. -/
  lutE : List Host.Cell
  /-- XLT_BREAK_CLEARS_EXT (R9). -/
  breakClearsExt : Bool
deriving DecidableEq, Repr

/-- `C`, the ring's capacity in slots: a power of two (R4). -/
def Config.C (c : Config) : Nat := 2 ^ c.iw

/-- The Edge Clock's period, `2^TW` counts (R80). -/
def Config.period (c : Config) : Nat := 2 ^ c.tw

/-- The admissible builds: `C >= 2` (R4), `TW >= 1` (R7), `TIMEOUT_US < 2^TW - 1` (R5). -/
def Config.wf (c : Config) : Bool :=
  decide (2 ≤ c.C) && decide (1 ≤ c.tw) && decide (c.timeoutUs + 1 < c.period)

/-- DESIGN CHOICE, safe: the contents of LUTN in the build that State.reset describes are a free value; the spec
gives none (R8, U5; notes/assumptions/3.md). -/
opaque Config.freeLutN : List Host.Cell

/-- DESIGN CHOICE, safe: the contents of LUTE in the build that State.reset describes are a free value; the spec
gives none (R8, U5; notes/assumptions/3.md). -/
opaque Config.freeLutE : List Host.Cell

/-- The defaults of R4 to R9: C = 16, 2000 microseconds, falling edge, step 4 clears `brk` only; TW = 32 is the
spec's suggestion (DESIGN CHOICE, notes/assumptions/2.md). -/
def Config.default : Config where
  iw := 4
  timeoutUs := 2000
  edgePol := .falling
  tw := 32
  lutN := Config.freeLutN
  lutE := Config.freeLutE
  breakClearsExt := false

end Sys2Proof
end

