-- ==== Sys2Proof/Syntax.lean ====
section
/-! DEFINITION. The instructions: one constructor per row of spec/opcode_table.json. -/

namespace Sys2Proof

/-- The rows of the opcode table: ten operations (30_encoding.md R72), the seven state cases EDGE dispatches to
(41_frame_decoder.md R90), the one frame format (R61) and the five scan-byte classes (R67).
Times are numbers of Edge Clock counts, taken modulo `2^TW` by the step (R74). -/
inductive Instr where
  /-- INIT (R145). -/
  | init
  /-- EDGE(d, now) (R90): the sampled data level and the Edge Clock value. -/
  | edge (d : Bool) (now : Nat)
  /-- AVAILABLE (R147). -/
  | available
  /-- READ_BYTE (R148). -/
  | readByte
  /-- NEXT_CHAR (R128). -/
  | nextChar
  /-- XLT_STEP (R127). -/
  | xltStep
  /-- RB_PUSH(b) (R112). -/
  | rbPush (b : Byte)
  /-- RB_POP (R113). -/
  | rbPop
  /-- RB_COUNT (R110). -/
  | rbCount
  /-- RESET (R180). -/
  | reset
  /-- EDGE.IDLE.START, pattern 000 (R93). -/
  | edgeIdleStart
  /-- EDGE.IDLE.IGNORE, pattern 001 (R94). -/
  | edgeIdleIgnore
  /-- EDGE.DATA, pattern 01d (R95, R96). -/
  | edgeData (d : Bool)
  /-- EDGE.PARITY.OK, pattern 10d with d = par (R97). -/
  | edgeParityOk (d : Bool)
  /-- EDGE.PARITY.FAIL, pattern 10d with d /= par (R98). -/
  | edgeParityFail (d : Bool)
  /-- EDGE.STOP.BAD, pattern 110 (R100). -/
  | edgeStopBad
  /-- EDGE.STOP.OK, pattern 111 (R99). -/
  | edgeStopOk
  /-- FRAME, pattern 0abcdefghp1 (R61): the byte, the parity bit as sent, the time of the first edge and the time
  from one edge to the next (R74). -/
  | frame (b : Byte) (p : Bool) (t : Nat) (dt : Nat)
  /-- SCAN.PREFIX_EXT, the byte 0xE0 (R127 step 2). -/
  | scanPrefixExt
  /-- SCAN.PREFIX_BRK, the byte 0xF0 (R127 step 3). -/
  | scanPrefixBrk
  /-- SCAN.CODE.RELEASE (R127 step 4). -/
  | scanCodeRelease (c : Byte)
  /-- SCAN.CODE.EXT (R127 step 5, `ext` set). -/
  | scanCodeExt (c : Byte)
  /-- SCAN.CODE.NORMAL (R127 step 5, `ext` clear). -/
  | scanCodeNormal (c : Byte)
deriving DecidableEq, Repr

end Sys2Proof
end

