-- ==== Sys2Proof/WellFormed.lean ====
section
/-! DEFINITION. Which instructions are well formed: the operand restrictions of the opcode table's rows. -/

namespace Sys2Proof

/-- A CODE byte: any value other than the two prefixes (30_encoding.md R67). -/
def isCodeByte (c : Byte) : Bool := c != 0xE0#8 && c != 0xF0#8

/-- How many bytes an encoded time may take; it bounds no build's clock (notes/assumptions/6.md). -/
def maxTimeBytes : Nat := 255

/-- A time the trace encoding can carry. -/
def timeOk (t : Nat) : Bool := decide (t < 256 ^ maxTimeBytes)

/-- The operand restrictions of each row. -/
def Instr.wf : Instr → Bool
  | .edge _ now => timeOk now
  | .frame _ _ t dt => timeOk t && timeOk dt
  | .scanCodeRelease c => isCodeByte c
  | .scanCodeExt c => isCodeByte c
  | .scanCodeNormal c => isCodeByte c
  | .init => true
  | .available => true
  | .readByte => true
  | .nextChar => true
  | .xltStep => true
  | .rbPush _ => true
  | .rbPop => true
  | .rbCount => true
  | .reset => true
  | .edgeIdleStart => true
  | .edgeIdleIgnore => true
  | .edgeData _ => true
  | .edgeParityOk _ => true
  | .edgeParityFail _ => true
  | .edgeStopBad => true
  | .edgeStopOk => true
  | .scanPrefixExt => true
  | .scanPrefixBrk => true

end Sys2Proof
end

