-- ==== Sys2Proof/Decode.lean ====
section
/-! DEFINITION. The trace encoding of the opcode table's rows and its decoder and encoder. The 4-bit operation codes,
the dispatch patterns `ssd`, the frame pattern and the scan-byte patterns are the spec's (30_encoding.md R61, R67, R72;
10_state.md R16); the byte that says which of the four formats follows is the model's (DESIGN CHOICE,
notes/assumptions/6.md):

    00..08, 0F   an operation code (OP4); EDGE is followed by d and now, RB_PUSH by its byte
    10..17       EDGE_DISPATCH, the low three bits are the pattern ssd; in Parity, d = par
    1C, 1D       EDGE_DISPATCH in Parity with d /= par (the table's second row of pattern 10d)
    20           FRAME11, followed by the eleven levels (two bytes, bit k is edge k), t and dt
    30, 31, 32   SCANBYTE of class CODE (release, extended, normal), followed by the byte
    E0, F0       SCANBYTE, the two prefixes

A time is one byte that says how many bytes follow, then those bytes, least significant first. -/

namespace Sys2Proof

/-- Why bytes are no instruction; a step that meets such bytes is refused (safe). -/
inductive DecodeError where
  /-- No byte at all. -/
  | empty
  /-- An operation code 9 to E, unused by R72. -/
  | unusedOperation (b : Byte)
  /-- A first byte that no format begins with. -/
  | unknownFormat (b : Byte)
  /-- The operands end too soon. -/
  | truncated
  /-- A data level that is neither 0 nor 1. -/
  | notALevel (b : Byte)
  /-- Eleven levels whose START is not 0 or whose STOP is not 1: not the row FRAME (R61). -/
  | notAFrame
  /-- A prefix byte where a CODE byte must stand (R67). -/
  | notACode (b : Byte)
deriving DecidableEq, Repr

/-- What decoding bytes gives: the instruction and the bytes after it, or the reason there is none. -/
abbrev Decoded := Except DecodeError (Instr × List Byte)

/-- The number whose bytes, least significant first, are given. -/
def natOfBytes : List Byte → Nat
  | [] => 0
  | b :: bs => b.toNat + 256 * natOfBytes bs

/-- The bytes of a number, least significant first, as few as hold it, at most `fuel`. -/
def bytesOfNat : Nat → Nat → List Byte
  | 0, _ => []
  | fuel + 1, n => if n = 0 then [] else BitVec.ofNat 8 n :: bytesOfNat fuel (n / 256)

/-- Reads a time. -/
def decodeTime : List Byte → Except DecodeError (Nat × List Byte)
  | [] => .error .truncated
  | n :: bs =>
    if bs.length < n.toNat then .error .truncated
    else .ok (natOfBytes (bs.take n.toNat), bs.drop n.toNat)

/-- Writes a time. -/
def encodeTime (t : Nat) : List Byte :=
  let bs := bytesOfNat maxTimeBytes t
  BitVec.ofNat 8 bs.length :: bs

/-- The level a byte stands for. -/
def decodeLevel (b : Byte) : Except DecodeError Bool :=
  if b = 0#8 then .ok false else if b = 1#8 then .ok true else .error (.notALevel b)

/-- The byte that stands for a level. -/
def encodeLevel (d : Bool) : Byte := if d then 1#8 else 0#8

/-- EDGE's operands: d, then now (R72). -/
def decodeEdge : List Byte → Decoded
  | [] => .error .truncated
  | b :: bs =>
    match decodeLevel b with
    | .error e => .error e
    | .ok d =>
      match decodeTime bs with
      | .error e => .error e
      | .ok (now, rest) => .ok (.edge d now, rest)

/-- The low eight levels of a frame: START is bit 0, D0 to D6 are bits 1 to 7 (R61). -/
def frameLow (b : Byte) : Byte := b <<< 1

/-- The high three levels of a frame: D7 is bit 0, PARITY bit 1, STOP = 1 bit 2 (R61). -/
def frameHigh (b : Byte) (p : Bool) : Byte := (b >>> 7) ||| (if p then 6#8 else 4#8)

/-- FRAME's operands: the eleven levels, of which START must be 0 and STOP 1, then t and dt (R61, R74). -/
def decodeFrame : List Byte → Decoded
  | lo :: hi :: bs =>
    if lo.getLsbD 0 || !hi.getLsbD 2 || hi >>> 3 != 0#8 then .error .notAFrame
    else
      match decodeTime bs with
      | .error e => .error e
      | .ok (t, bs') =>
        match decodeTime bs' with
        | .error e => .error e
        | .ok (dt, rest) => .ok (.frame ((lo >>> 1) ||| (hi <<< 7)) (hi.getLsbD 1) t dt, rest)
  | _ => .error .truncated

/-- The operand of a SCANBYTE row of class CODE (R67). -/
def decodeCode (row : Byte → Instr) : List Byte → Decoded
  | [] => .error .truncated
  | c :: rest => if isCodeByte c then .ok (row c, rest) else .error (.notACode c)

/-- RB_PUSH's operand. -/
def decodePush : List Byte → Decoded
  | [] => .error .truncated
  | b :: rest => .ok (.rbPush b, rest)

/-- The rows of format OP4: the operation codes of R72, with their operands; 9 to E are unused. -/
def decodeOperation (b : Byte) (rest : List Byte) : Decoded :=
  if b = 0x00#8 then .ok (.init, rest)
  else if b = 0x01#8 then decodeEdge rest
  else if b = 0x02#8 then .ok (.available, rest)
  else if b = 0x03#8 then .ok (.readByte, rest)
  else if b = 0x04#8 then .ok (.nextChar, rest)
  else if b = 0x05#8 then .ok (.xltStep, rest)
  else if b = 0x06#8 then decodePush rest
  else if b = 0x07#8 then .ok (.rbPop, rest)
  else if b = 0x08#8 then .ok (.rbCount, rest)
  else if b = 0x0F#8 then .ok (.reset, rest)
  else .error (.unusedOperation b)

/-- The rows of format EDGE_DISPATCH: the pattern ssd of R72 in the low three bits, and bit 3 for the second row of
pattern 10d. -/
def decodeDispatch (b : Byte) (rest : List Byte) : Decoded :=
  if b = 0x10#8 then .ok (.edgeIdleStart, rest)
  else if b = 0x11#8 then .ok (.edgeIdleIgnore, rest)
  else if b = 0x12#8 then .ok (.edgeData false, rest)
  else if b = 0x13#8 then .ok (.edgeData true, rest)
  else if b = 0x14#8 then .ok (.edgeParityOk false, rest)
  else if b = 0x15#8 then .ok (.edgeParityOk true, rest)
  else if b = 0x16#8 then .ok (.edgeStopBad, rest)
  else if b = 0x17#8 then .ok (.edgeStopOk, rest)
  else if b = 0x1C#8 then .ok (.edgeParityFail false, rest)
  else if b = 0x1D#8 then .ok (.edgeParityFail true, rest)
  else .error (.unknownFormat b)

/-- The rows of formats FRAME11 and SCANBYTE (R61, R67). -/
def decodeFrameOrScan (b : Byte) (rest : List Byte) : Decoded :=
  if b = 0x20#8 then decodeFrame rest
  else if b = 0x30#8 then decodeCode .scanCodeRelease rest
  else if b = 0x31#8 then decodeCode .scanCodeExt rest
  else if b = 0x32#8 then decodeCode .scanCodeNormal rest
  else if b = 0xE0#8 then .ok (.scanPrefixExt, rest)
  else if b = 0xF0#8 then .ok (.scanPrefixBrk, rest)
  else .error (.unknownFormat b)

/-- One instruction from the bytes of a trace, with the bytes after it; the first byte's high half says the format. -/
def decode : List Byte → Decoded
  | [] => .error .empty
  | b :: rest =>
    if b >>> 4 = 0#8 then decodeOperation b rest
    else if b >>> 4 = 1#8 then decodeDispatch b rest
    else decodeFrameOrScan b rest

/-- The bytes of an instruction. -/
def encode : Instr → List Byte
  | .init => [0x00#8]
  | .edge d now => 0x01#8 :: encodeLevel d :: encodeTime now
  | .available => [0x02#8]
  | .readByte => [0x03#8]
  | .nextChar => [0x04#8]
  | .xltStep => [0x05#8]
  | .rbPush b => [0x06#8, b]
  | .rbPop => [0x07#8]
  | .rbCount => [0x08#8]
  | .reset => [0x0F#8]
  | .edgeIdleStart => [0x10#8]
  | .edgeIdleIgnore => [0x11#8]
  | .edgeData d => [if d then 0x13#8 else 0x12#8]
  | .edgeParityOk d => [if d then 0x15#8 else 0x14#8]
  | .edgeParityFail d => [if d then 0x1D#8 else 0x1C#8]
  | .edgeStopBad => [0x16#8]
  | .edgeStopOk => [0x17#8]
  | .frame b p t dt => 0x20#8 :: frameLow b :: frameHigh b p :: (encodeTime t ++ encodeTime dt)
  | .scanPrefixExt => [0xE0#8]
  | .scanPrefixBrk => [0xF0#8]
  | .scanCodeRelease c => [0x30#8, c]
  | .scanCodeExt c => [0x31#8, c]
  | .scanCodeNormal c => [0x32#8, c]

/-- `k` bytes of a number, least significant first. -/
def lowBytes : Nat → Nat → List Byte
  | 0, _ => []
  | k + 1, w => BitVec.ofNat 8 w :: lowBytes k (w / 256)

/-- A frame pattern's eleven levels, whose leftmost (highest) bit is the first edge in time (R61), with edge `k` in
bit `k`. -/
def timeOrder (w : Nat) : Nat := (List.range 11).foldl (fun n k => 2 * n + (w >>> k) % 2) 0

/-- The bytes of a table word of `nbits` bits, then operand bytes of zeros. Only the format FRAME11 is wider than one
byte, and its trace word begins with the format byte. -/
def tableWordBytes (nbits w : Nat) : List Byte :=
  (if nbits ≤ 8 then lowBytes 1 w else 0x20#8 :: lowBytes 2 (timeOrder w)) ++ List.replicate 8 0#8

/-- The instruction the decoder reads from a table word. -/
def decodeTableWord (nbits w : Nat) : Option Instr :=
  match decode (tableWordBytes nbits w) with
  | .ok (i, _) => some i
  | .error _ => none

end Sys2Proof
end

