-- ==== Sys2Proof/Machine/State.lean ====
section
/-! DEFINITION. The state of the machine (10_state.md R15), how a step can stop, and the state after reset. -/

namespace Sys2Proof.Machine

open Sys2Proof

/-- The sequencing register's four values (10_state.md R16). -/
inductive St where
  | idle
  | data
  | parity
  | stop
deriving DecidableEq, Repr

/-- Memory: the bytes that hold a value, by address, strictly rising (20_memory.md R40). -/
abbrev Memory := List Host.Cell

/-- One edge event as the ENVIRONMENT supplies it (30_encoding.md R60, 40_edge_clock.md R82). -/
structure EdgeEvent where
  d : Bool
  now : Nat
deriving DecidableEq, Repr

/-- A value an operation returned (00_scope.md R11, 30_encoding.md R72). -/
inductive Ret where
  /-- AVAILABLE's Boolean. -/
  | available (v : Bool)
  /-- READ_BYTE's byte. -/
  | byte (b : Byte)
  /-- NEXT_CHAR's code. -/
  | char (c : Byte)
  /-- XLT_STEP or a SCAN row: Continue. -/
  | continues
  /-- XLT_STEP or a SCAN.CODE row: Done(c); the NEXT_CHAR call it is the end of returns c
  (notes/assumptions/10.md). -/
  | done (c : Byte)
  /-- RB_POP's byte (internal). -/
  | popped (b : Byte)
  /-- RB_COUNT's number (internal). -/
  | count (n : Nat)
deriving DecidableEq, Repr

/-- The machine's state. `cfg` is the build (constant); `en` to `brk` are the spec's tuple (R15); `results`, `prog`
and `env` are the model's own: what was returned, and what the agents and the environment do next. -/
structure State where
  /-- The build parameters (00_scope.md R4 to R9); no step changes them (notes/assumptions/1.md). -/
  cfg : Config
  /-- Event delivery enable (R26). -/
  en : Bool
  /-- The sequencing register (R16). -/
  st : St
  /-- The bit accumulator (R17). -/
  acc : Byte
  /-- The bit index, 4 bits (R18). -/
  idx : BitVec 4
  /-- The parity accumulator (R19). -/
  par : Bool
  /-- The time of the last processed edge, TW bits (R20). -/
  tLast : Nat
  /-- The slot the next push writes, IW bits (R21). -/
  head : Nat
  /-- The slot of the oldest queued byte, IW bits (R22). -/
  tail : Nat
  /-- BUF: the slots that hold a value (R23). -/
  buf : Memory
  /-- The extended flag (R24). -/
  ext : Bool
  /-- The breaking flag (R25). -/
  brk : Bool
  /-- The values returned so far, newest first; no operation reads them (R11, notes/assumptions/10.md). -/
  results : List Ret
  /-- The bytes of the coming trace, in interleaving order (R73, notes/assumptions/6.md). -/
  prog : List Byte
  /-- For each coming step, the edge event that happens before the trace's next word, if one does
  (R49, R163, notes/assumptions/7.md). -/
  env : List (Option EdgeEvent)
deriving DecidableEq, Repr

/-- Why the machine stops. -/
inductive Fault where
  /-- RB_POP or READ_BYTE with the buffer empty: the CONSUMER broke the precondition and the result is undefined
  (42_ring_buffer.md R114, 60_exceptions.md R173). Safe. -/
  | popEmpty
  /-- A pop reads a slot that holds no value; no run from reset does (20_memory.md R56). Raised by RB_POP, READ_BYTE,
  XLT_STEP, NEXT_CHAR in such a state only. Safe. -/
  | slotUnwritten (a : Nat)
  /-- A slot address outside `0..C-1`, which does not exist (20_memory.md R41); no run from reset forms one. Raised by a
  push or a pop in such a state only. Safe. -/
  | slotAbsent (a : Nat)
deriving DecidableEq, Repr

/-- Why the machine gives an instruction no meaning. -/
inductive Refusal where
  /-- An instruction without a meaning yet; raised by exec's arms only. Safe. -/
  | notModelled (mnemonic : String)
  /-- INIT while `en = 1` (44_public_operations.md R146, 60_exceptions.md R173). Safe. -/
  | reinit
  /-- A dispatch row of EDGE or a class row of XLT_STEP taken in a state that does not select it; EDGE and XLT_STEP
  themselves never do (notes/assumptions/11.md, 12.md). Safe. -/
  | rowNotSelected
  /-- The trace's next bytes are no instruction; raised by the fetch. Safe. -/
  | undecoded (e : DecodeError)
deriving DecidableEq, Repr

/-- The outcome of a step of this machine. -/
abbrev Out := Host.Outcome State Fault Refusal

/-- The machine right after hardware reset (70_reset_and_hazards.md R180, R181), in the default build, with no trace
loaded and nothing returned yet (DESIGN CHOICE for the last, notes/assumptions/8.md). -/
def State.reset : State where
  cfg := Config.default
  en := false
  st := .idle
  acc := 0#8
  idx := 0#4
  par := true
  tLast := 0
  head := 0
  tail := 0
  buf := []
  ext := false
  brk := false
  results := []
  prog := []
  env := []

end Sys2Proof.Machine
end

