-- ==== Sys2Proof/Machine/Operands.lean ====
section
/-! DEFINITION. Operand forms: modular arithmetic, the levels and times of a frame's edges, the mapping of line
transitions to edge events, and which instruction belongs to which agent. -/

namespace Sys2Proof.Machine

open Sys2Proof

/-- `(a - b) mod n` with the mathematical remainder (00_scope.md R13). -/
def modSub (a b n : Nat) : Nat := (((a : Int) - (b : Int)) % (n : Int)).toNat

/-- `(i + 1) mod C`, the only way an index moves (42_ring_buffer.md R116). -/
def State.nextIndex (s : State) (i : Nat) : Nat := (i + 1) % s.cfg.C

/-- `v` with bit `i` set to `d`; no bit when `i` is 8 or more (41_frame_decoder.md R95). -/
def writeBit (v : Byte) (i : BitVec 4) (d : Bool) : Byte :=
  (v &&& ~~~(1#8 <<< i.toNat)) ||| ((if d then 1#8 else 0#8) <<< i.toNat)

/-- `P(B)`: the parity bit that makes the count of 1 bits odd (30_encoding.md R63). -/
def parityBit (b : Byte) : Bool :=
  (List.range 8).foldl (fun p i => p ^^ b.getLsbD i) true

/-- The eleven levels of a frame in time order: START, D0 to D7, PARITY, STOP (30_encoding.md R61). -/
def frameLevels (b : Byte) (p : Bool) : List Bool :=
  false :: ((List.range 8).map b.getLsbD ++ [p, true])

/-- Levels as edge events, the first at time `t`, each next one `dt` later (30_encoding.md R74 BITS). -/
def timedEdges : List Bool → Nat → Nat → List EdgeEvent
  | [], _, _ => []
  | d :: ds, t, dt => ⟨d, t⟩ :: timedEdges ds (t + dt) dt

/-- The eleven edge events of a FRAME (30_encoding.md R74). -/
def frameEdges (b : Byte) (p : Bool) (t dt : Nat) : List EdgeEvent :=
  timedEdges (frameLevels b p) t dt

/-- A sample of the two lines with the Edge Clock's value (30_encoding.md R60). -/
structure LineSample where
  clk : Bool
  data : Bool
  now : Nat
deriving DecidableEq, Repr

/-- Whether the clock line going from one level to the next is the trigger transition (00_scope.md R6). -/
def triggers (pol : EdgePol) (before after : Bool) : Bool :=
  match pol with
  | .falling => before && !after
  | .rising => !before && after

/-- The edge events of a waveform, given the clock level before it: exactly one for each trigger transition, with the
data level and the counter value at that transition (30_encoding.md R60). -/
def edgeEvents (pol : EdgePol) : Bool → List LineSample → List EdgeEvent
  | _, [] => []
  | clk, x :: xs =>
    if triggers pol clk x.clk then ⟨x.data, x.now⟩ :: edgeEvents pol x.clk xs else edgeEvents pol x.clk xs

/-- Who takes a step (00_scope.md R10, 30_encoding.md R72). -/
inductive Agent where
  | producer
  | consumer
  /-- RB_COUNT: either side may call for inspection (R110). -/
  | either
  /-- RESET: neither (R72). -/
  | hardware
deriving DecidableEq, Repr

/-- The agent of each instruction (30_encoding.md R72); a dispatch case belongs to EDGE's agent, a scan-byte class to
XLT_STEP's. -/
def agentOf : Instr → Agent
  | .init => .consumer
  | .edge _ _ => .producer
  | .available => .consumer
  | .readByte => .consumer
  | .nextChar => .consumer
  | .xltStep => .consumer
  | .rbPush _ => .producer
  | .rbPop => .consumer
  | .rbCount => .either
  | .reset => .hardware
  | .edgeIdleStart => .producer
  | .edgeIdleIgnore => .producer
  | .edgeData _ => .producer
  | .edgeParityOk _ => .producer
  | .edgeParityFail _ => .producer
  | .edgeStopBad => .producer
  | .edgeStopOk => .producer
  | .frame _ _ _ _ => .producer
  | .scanPrefixExt => .consumer
  | .scanPrefixBrk => .consumer
  | .scanCodeRelease _ => .consumer
  | .scanCodeExt _ => .consumer
  | .scanCodeNormal _ => .consumer

end Sys2Proof.Machine
end

