-- ==== Sys2Proof/Machine/Flags.lean ====
section
/-! DEFINITION. The derived status values and the flag computations: occupancy, empty, full (10_state.md R28), the
inter-edge delta and the timeout test (40_edge_clock.md R83, R85). -/

namespace Sys2Proof.Machine

open Sys2Proof

/-- `count = (head - tail) mod C` (10_state.md R28, 42_ring_buffer.md R110). -/
def State.count (s : State) : Nat := modSub s.head s.tail s.cfg.C

/-- The buffer is empty (42_ring_buffer.md R111). -/
def State.isEmpty (s : State) : Bool := s.head == s.tail

/-- The buffer is full (42_ring_buffer.md R111). -/
def State.isFull (s : State) : Bool := s.nextIndex s.head == s.tail

/-- `delta = (now - t_last) mod 2^TW` (40_edge_clock.md R83). -/
def State.delta (s : State) (now : Nat) : Nat := modSub now s.tLast s.cfg.period

/-- `timed_out`: delta strictly above the threshold (40_edge_clock.md R85). -/
def State.timedOut (s : State) (now : Nat) : Bool := decide (s.cfg.timeoutUs < s.delta now)

/-- The parity accumulator after one more data bit: it changes on a 1 only (10_state.md R19, 90_conflicts.md C4). -/
def parityStep (p d : Bool) : Bool := p ^^ d

end Sys2Proof.Machine
end

