-- ==== Sys2Proof/Machine/Ops.lean ====
section
/-! DEFINITION. The named operations over memory and registers that the meanings share: the one-byte memory accesses,
the ring's push and pop, the decoder's state cases, the recovery, the fetch of an instruction. -/

namespace Sys2Proof.Machine

open Sys2Proof

/-- The value at an address, if it holds one. -/
def memRead : Memory → Nat → Option Byte
  | [], _ => none
  | (k, v) :: m, a => if k = a then some v else memRead m a

/-- Memory with one byte written, in the canonical form. -/
def memWrite : Memory → Nat → Byte → Memory
  | [], a, v => [(a, v)]
  | (k, w) :: m, a, v =>
    if a < k then (a, v) :: (k, w) :: m
    else if a = k then (a, v) :: m
    else (k, w) :: memWrite m a v

/-- The canonical form: addresses strictly rising. An unlisted slot holds no value, so no entry is redundant. -/
def Memory.wf : Memory → Bool
  | [] => true
  | (k, _) :: m => m.all (fun c => decide (k < c.1)) && Memory.wf m

/-- Every address that holds a value exists, `0..n-1` (20_memory.md R40). -/
def Memory.below (n : Nat) (m : Memory) : Bool := m.all (fun c => decide (c.1 < n))

/-- `LOOKUP(table, b)` (43_scan_translator.md R125): an absent entry reads 0 (00_scope.md R8). -/
def lookup (table : Memory) (b : Byte) : Byte := (memRead table b.toNat).getD 0#8

/-- `MemRead(BUF:a, 1)`. -/
def State.bufRead (s : State) (a : Nat) : Except Fault Byte :=
  if a < s.cfg.C then
    match memRead s.buf a with
    | some b => .ok b
    | none => .error (.slotUnwritten a)
  else .error (.slotAbsent a)

/-- `MemWrite(BUF:a, 1, v)`. -/
def State.bufWrite (s : State) (a : Nat) (v : Byte) : Except Fault State :=
  if a < s.cfg.C then .ok { s with buf := memWrite s.buf a v } else .error (.slotAbsent a)

/-- RB_PUSH(b) (42_ring_buffer.md R112): the slot is written before `head` (20_memory.md R50). -/
def State.push (s : State) (b : Byte) : Except Fault State :=
  if s.isFull then .ok s
  else
    match s.bufWrite s.head b with
    | .error f => .error f
    | .ok s' => .ok { s' with head := s.nextIndex s.head }

/-- RB_POP() (42_ring_buffer.md R113, R114): the slot is read before `tail` is written (20_memory.md R50). -/
def State.pop (s : State) : Except Fault (Byte × State) :=
  if s.isEmpty then .error .popEmpty
  else
    match s.bufRead s.tail with
    | .error f => .error f
    | .ok b => .ok (b, { s with tail := s.nextIndex s.tail })

/-- What the CONSUMER gets back is noted (00_scope.md R11). -/
def State.returned (s : State) (r : Ret) : State := { s with results := r :: s.results }

/-- The observable value of a returned one: AVAILABLE's, READ_BYTE's, NEXT_CHAR's (00_scope.md R11,
70_reset_and_hazards.md R199). An XLT_STEP that is Done ends its call with that code (30_encoding.md R73). DESIGN CHOICE,
unsafe: every Done counts so, that of an XLT_STEP word and that of a SCAN.CODE.EXT or SCAN.CODE.NORMAL word alike, since
such a word is the end of an XLT_STEP; the spec says of neither, standing by itself, whether the host gets it back
(notes/assumptions/10.md). -/
def Ret.observed : Ret → Option Ret
  | .available v => some (.available v)
  | .byte b => some (.byte b)
  | .char c => some (.char c)
  | .done c => some (.char c)
  | .continues => none
  | .popped _ => none
  | .count _ => none

/-- What an outside observer has seen, oldest first (00_scope.md R11). -/
def State.observed (s : State) : List Ret := s.results.reverse.filterMap Ret.observed

/-- The recovery from error classes (a), (b) and (c), and every return to Idle: `st` only (60_exceptions.md R167,
41_frame_decoder.md R101). -/
def State.resync (s : State) : State := { s with st := .idle }

/-- Time stamp and timeout pre-check (41_frame_decoder.md R92). -/
def State.precheck (s : State) (now : Nat) : State :=
  let stamped := { s with tLast := now % s.cfg.period }
  if s.timedOut now then stamped.resync else stamped

/-- Idle, d = 0: a frame starts (41_frame_decoder.md R93). -/
def State.startFrame (s : State) : State := { s with acc := 0#8, idx := 0#4, par := true, st := .data }

/-- Data: shift in one bit (41_frame_decoder.md R95), and after the eighth go to Parity (R96). -/
def State.shiftIn (s : State) (d : Bool) : State :=
  { s with
    acc := writeBit s.acc s.idx d
    par := parityStep s.par d
    idx := s.idx + 1#4
    st := if s.idx + 1#4 = 8#4 then .parity else s.st }

/-- Parity good (41_frame_decoder.md R97). -/
def State.toStop (s : State) : State := { s with st := .stop }

/-- Stop, d = 1: the byte is pushed, whether or not the push succeeds (41_frame_decoder.md R99). -/
def State.deliver (s : State) : Except Fault State :=
  match s.push s.acc with
  | .error f => .error f
  | .ok s' => .ok s'.resync

/-- A result that can only be a state or a fault, as a step's outcome. -/
def outcomeOf : Except Fault State → Out
  | .ok s => .next s
  | .error f => .fault f

/-- The bytes of the next instruction leave the trace, and the instruction is what they decode to. With no trace left
nothing happens and the block holds its state (60_exceptions.md R172). -/
def fetch (run : Instr → State → Out) (s : State) : Out :=
  match s.prog with
  | [] => .next s
  | b :: bs =>
    match decode (b :: bs) with
    | .ok (i, rest) => run i { s with prog := rest }
    | .error e => .refused (.undecoded e)

/-- One step: an edge event that happens now preempts the trace (20_memory.md R49, 60_exceptions.md R163); else the
trace's next instruction runs. -/
def stepWith (run : Instr → State → Out) (s : State) : Out :=
  match s.env with
  | some e :: es => run (.edge e.d e.now) { s with env := es }
  | none :: es => fetch run { s with env := es }
  | [] => fetch run s

/-- The state with a table word put where the next step fetches: at the head of the trace, with no edge event before
it (notes/assumptions/8.md). -/
def State.placeWord (s : State) (nbits w : Nat) : State :=
  let bs := tableWordBytes nbits w
  let word := match decode bs with
    | .ok (_, rest) => bs.take (bs.length - rest.length)
    | .error _ => bs
  { s with prog := word ++ s.prog, env := [] }

end Sys2Proof.Machine
end

