-- ==== Sys2Proof/Machine/Decoder.lean ====
section
/-! DEFINITION. The Frame Decoder family: EDGE, its seven dispatch cases, and FRAME (41_frame_decoder.md). -/

namespace Sys2Proof.Machine

open Sys2Proof

/-- The state case of a delivered edge, on `st` as the pre-check left it (R90). -/
def edgeCase (d : Bool) (s : State) : Out :=
  match s.st with
  | .idle => if d then .next s else .next s.startFrame
  | .data => .next (s.shiftIn d)
  | .parity => if d = s.par then .next s.toStop else .next s.resync
  | .stop => if d then outcomeOf s.deliver else .next s.resync

/-- EDGE(d, now) (R90): the gate (R91), the pre-check (R92), then exactly one state case. -/
def execEdge (d : Bool) (now : Nat) (s : State) : Out :=
  if s.en then edgeCase d (s.precheck now) else .next s

/-- EDGE.IDLE.START (R93). -/
def execEdgeIdleStart (s : State) : Out :=
  if s.st = .idle then .next s.startFrame else .refused .rowNotSelected

/-- EDGE.IDLE.IGNORE (R94): nothing is written. -/
def execEdgeIdleIgnore (s : State) : Out :=
  if s.st = .idle then .next s else .refused .rowNotSelected

/-- EDGE.DATA (R95, R96). -/
def execEdgeData (d : Bool) (s : State) : Out :=
  if s.st = .data then .next (s.shiftIn d) else .refused .rowNotSelected

/-- EDGE.PARITY.OK (R97). -/
def execEdgeParityOk (d : Bool) (s : State) : Out :=
  if s.st = .parity ∧ d = s.par then .next s.toStop else .refused .rowNotSelected

/-- EDGE.PARITY.FAIL (R98): the byte is discarded, silently (60_exceptions.md R157). -/
def execEdgeParityFail (d : Bool) (s : State) : Out :=
  if s.st = .parity ∧ d ≠ s.par then .next s.resync else .refused .rowNotSelected

/-- EDGE.STOP.BAD (R100): the byte is discarded, silently (60_exceptions.md R156). -/
def execEdgeStopBad (s : State) : Out :=
  if s.st = .stop then .next s.resync else .refused .rowNotSelected

/-- EDGE.STOP.OK (R99). -/
def execEdgeStopOk (s : State) : Out :=
  if s.st = .stop then outcomeOf s.deliver else .refused .rowNotSelected

/-- Edge events taken one after the other, each as one EDGE step. -/
def runEdges : List EdgeEvent → State → Out
  | [], s => .next s
  | e :: es, s =>
    match execEdge e.d e.now s with
    | .next s' => runEdges es s'
    | .fault f => .fault f
    | .refused r => .refused r

/-- FRAME (30_encoding.md R61, R74): its eleven EDGE steps, with no other step between them
(notes/assumptions/13.md). -/
def execFrame (b : Byte) (p : Bool) (t dt : Nat) (s : State) : Out :=
  runEdges (frameEdges b p t dt) s

end Sys2Proof.Machine
end

