-- ==== Sys2Proof/Machine/Public.lean ====
section
/-! DEFINITION. The public operations INIT, AVAILABLE, READ_BYTE (44_public_operations.md) and RESET
(70_reset_and_hazards.md R180). NEXT_CHAR is in Translator.lean. -/

namespace Sys2Proof.Machine

open Sys2Proof

/-- The decoder and buffer registers at their reset values (R145, 10_state.md R16 to R22). -/
def State.clearDecoder (s : State) : State :=
  { s with st := .idle, acc := 0#8, idx := 0#4, par := true, tLast := 0, head := 0, tail := 0 }

/-- INIT (R145); with `en = 1` it is refused (R146). It writes neither BUF nor `ext`, `brk`. -/
def execInit (s : State) : Out :=
  if s.en then .refused .reinit else .next { s.clearDecoder with en := true }

/-- AVAILABLE (R147). -/
def execAvailable (s : State) : Out := .next (s.returned (.available (decide (s.count ≠ 0))))

/-- READ_BYTE (R148): RB_POP, its byte returned to the CONSUMER. -/
def execReadByte (s : State) : Out :=
  match s.pop with
  | .ok (b, s') => .next (s'.returned (.byte b))
  | .error f => .fault f

/-- RESET (70_reset_and_hazards.md R180). BUF is not written: its contents are unspecified from then on, so no slot
holds a value (R182, 95_test_vectors.md L2.6; DEDUCED, notes/assumptions/5.md). The build, the trace, the edge lane and
the values already returned are not the block's to reset. -/
def execReset (s : State) : Out :=
  .next { s.clearDecoder with en := false, ext := false, brk := false, buf := [] }

end Sys2Proof.Machine
end

