-- ==== Sys2Proof/Machine/Ring.lean ====
section
/-! DEFINITION. The Ring Buffer family: RB_PUSH, RB_POP, RB_COUNT (42_ring_buffer.md). -/

namespace Sys2Proof.Machine

open Sys2Proof

/-- RB_PUSH(b) (R112). -/
def execRbPush (b : Byte) (s : State) : Out := outcomeOf (s.push b)

/-- RB_POP (R113); with the buffer empty a fault of the CONSUMER (R114). -/
def execRbPop (s : State) : Out :=
  match s.pop with
  | .ok (b, s') => .next (s'.returned (.popped b))
  | .error f => .fault f

/-- RB_COUNT (R110). -/
def execRbCount (s : State) : Out := .next (s.returned (.count s.count))

end Sys2Proof.Machine
end

