-- ==== Sys2Proof/Machine/Translator.lean ====
section
/-! DEFINITION. The Scan Translator family: the scan-byte classes, XLT_STEP and NEXT_CHAR (43_scan_translator.md). -/

namespace Sys2Proof.Machine

open Sys2Proof

/-- What one iteration gives: Continue, or Done with a code (R127). -/
inductive XltResult where
  | continues
  | done (c : Byte)
deriving DecidableEq, Repr

/-- Done for a mapped code, Continue for an unmapped one (R127 step 5). -/
def codeResult (c : Byte) : XltResult := if c = 0#8 then .continues else .done c

/-- Step 2: the extended prefix. -/
def State.setExt (s : State) : State := { s with ext := true }

/-- Step 3: the break prefix. -/
def State.setBrk (s : State) : State := { s with brk := true }

/-- Step 4: a release code; whether it clears `ext` too is the build's (R133). -/
def State.release (s : State) : State :=
  { s with brk := false, ext := if s.cfg.breakClearsExt then false else s.ext }

/-- Step 5, `ext` set: look up in LUTE, `ext` cleared whatever the entry (R132). -/
def State.lookupExt (s : State) (c : Byte) : XltResult × State :=
  (codeResult (lookup s.cfg.lutE c), { s with ext := false })

/-- Step 5, `ext` clear: look up in LUTN. -/
def State.lookupNormal (s : State) (c : Byte) : XltResult × State :=
  (codeResult (lookup s.cfg.lutN c), s)

/-- The handling of a popped byte: the tests in the order that R129 makes normative. -/
def handleByte (b : Byte) (s : State) : XltResult × State :=
  if b = 0xE0#8 then (.continues, s.setExt)
  else if b = 0xF0#8 then (.continues, s.setBrk)
  else if s.brk then (.continues, s.release)
  else if s.ext then s.lookupExt b
  else s.lookupNormal b

/-- One iteration of the loop (R127): the occupancy test, the pop, the handling of the byte. -/
def State.xltStep (s : State) : Except Fault (XltResult × State) :=
  if s.count = 0 then .ok (.done 0#8, s)
  else
    match s.pop with
    | .error f => .error f
    | .ok (b, s') => .ok (handleByte b s')

/-- XLT_STEP's result as a returned value. -/
def XltResult.ret : XltResult → Ret
  | .continues => .continues
  | .done c => .done c

/-- The outcome of an operation that returns Continue or Done. -/
def returnXlt (r : XltResult × State) : Out := .next (r.2.returned r.1.ret)

/-- XLT_STEP (R127). -/
def execXltStep (s : State) : Out :=
  match s.xltStep with
  | .ok r => returnXlt r
  | .error f => .fault f

/-- NEXT_CHAR (R128): one iteration of its loop. Done returns the code; Continue leaves the call at the head of the
trace, so that its next iteration is a step of its own and an edge event may come first (20_memory.md R49,
notes/assumptions/9.md). -/
def execNextChar (s : State) : Out :=
  match s.xltStep with
  | .ok (.done c, s') => .next (s'.returned (.char c))
  | .ok (.continues, s') => .next { s' with prog := encode .nextChar ++ s'.prog }
  | .error f => .fault f

/-- SCAN.PREFIX_EXT (R127 step 2). -/
def execScanPrefixExt (s : State) : Out := returnXlt (.continues, s.setExt)

/-- SCAN.PREFIX_BRK (R127 step 3). -/
def execScanPrefixBrk (s : State) : Out := returnXlt (.continues, s.setBrk)

/-- SCAN.CODE.RELEASE (R127 step 4, R131). -/
def execScanCodeRelease (c : Byte) (s : State) : Out :=
  if isCodeByte c ∧ s.brk then returnXlt (.continues, s.release) else .refused .rowNotSelected

/-- SCAN.CODE.EXT (R127 step 5, R132). -/
def execScanCodeExt (c : Byte) (s : State) : Out :=
  if isCodeByte c ∧ !s.brk ∧ s.ext then returnXlt (s.lookupExt c) else .refused .rowNotSelected

/-- SCAN.CODE.NORMAL (R127 step 5). -/
def execScanCodeNormal (c : Byte) (s : State) : Out :=
  if isCodeByte c ∧ !s.brk ∧ !s.ext then returnXlt (s.lookupNormal c) else .refused .rowNotSelected

end Sys2Proof.Machine
end

