-- ==== Sys2Proof/Machine/Dispatch.lean ====
section
/-! DEFINITION. One arm per row of the opcode table. -/

namespace Sys2Proof.Machine

def exec (i : Instr) (s : State) : Host.Outcome State Fault Refusal :=
  match i with
  | .init => Sys2Proof.Machine.execInit s
  | .edge d now => Sys2Proof.Machine.execEdge d now s
  | .available => Sys2Proof.Machine.execAvailable s
  | .readByte => Sys2Proof.Machine.execReadByte s
  | .nextChar => Sys2Proof.Machine.execNextChar s
  | .xltStep => Sys2Proof.Machine.execXltStep s
  | .rbPush b => Sys2Proof.Machine.execRbPush b s
  | .rbPop => Sys2Proof.Machine.execRbPop s
  | .rbCount => Sys2Proof.Machine.execRbCount s
  | .reset => Sys2Proof.Machine.execReset s
  | .edgeIdleStart => Sys2Proof.Machine.execEdgeIdleStart s
  | .edgeIdleIgnore => Sys2Proof.Machine.execEdgeIdleIgnore s
  | .edgeData d => Sys2Proof.Machine.execEdgeData d s
  | .edgeParityOk d => Sys2Proof.Machine.execEdgeParityOk d s
  | .edgeParityFail d => Sys2Proof.Machine.execEdgeParityFail d s
  | .edgeStopBad => Sys2Proof.Machine.execEdgeStopBad s
  | .edgeStopOk => Sys2Proof.Machine.execEdgeStopOk s
  | .frame b p t dt => Sys2Proof.Machine.execFrame b p t dt s
  | .scanPrefixExt => Sys2Proof.Machine.execScanPrefixExt s
  | .scanPrefixBrk => Sys2Proof.Machine.execScanPrefixBrk s
  | .scanCodeRelease c => Sys2Proof.Machine.execScanCodeRelease c s
  | .scanCodeExt c => Sys2Proof.Machine.execScanCodeExt c s
  | .scanCodeNormal c => Sys2Proof.Machine.execScanCodeNormal c s

end Sys2Proof.Machine
end

