-- ==== Sys2Proof/Machine/Step.lean ====
section
/-! DEFINITION. One step of the machine, and a table word put where the next step fetches. -/

namespace Sys2Proof.Machine

open Sys2Proof

/-- One step (20_memory.md R49): an edge event of the environment, or the trace's next instruction. -/
def step (s : State) : Host.Outcome State Fault Refusal := stepWith exec s

/-- The state whose next step runs the table word (notes/assumptions/8.md). -/
def State.withFetchWord (s : State) (nbits w : Nat) : State := s.placeWord nbits w

end Sys2Proof.Machine
end

