-- ==== Sys2Proof/Safety.lean ====
section
/-! DEFINITION. What the statements speak of: the invariants of 10_state.md R32, R33 and 20_memory.md R56, the queue as
a list, runs of several operations, the row each dispatch selects, and the translator as a function of the queue. -/

namespace Sys2Proof.Machine

open Sys2Proof

/-- The byte of the `k`-th queued slot, counted from the oldest. -/
def State.slot (s : State) (k : Nat) : Option Byte := memRead s.buf ((s.tail + k) % s.cfg.C)

/-- The queued slots, oldest first (20_memory.md R56). -/
def State.queue (s : State) : List (Option Byte) := (List.range s.count).map s.slot

/-- `1 xor acc[0] xor ... xor acc[n-1]` (10_state.md R19, R33). -/
def runParity (acc : Byte) : Nat → Bool
  | 0 => true
  | n + 1 => runParity acc n ^^ acc.getLsbD n

/-- R32: both indices in `[0, C)`, the occupancy at most `C - 1`. -/
abbrev State.IndexInv (s : State) : Prop :=
  s.head < s.cfg.C ∧ s.tail < s.cfg.C ∧ s.count ≤ s.cfg.C - 1

/-- R33: the partial frame held while `st` is Data, Parity or Stop. -/
abbrev State.FrameInv (s : State) : Prop :=
  (s.st = .data → s.idx.toNat ≤ 7) ∧
  (s.st = .parity ∨ s.st = .stop → s.idx = 8#4) ∧
  (s.st ≠ .idle →
    (∀ i, i < 8 → s.idx.toNat ≤ i → s.acc.getLsbD i = false) ∧ s.par = runParity s.acc s.idx.toNat)

/-- R56: the queued slots hold a value; and BUF is in canonical form, with existing addresses only. -/
abbrev State.BufInv (s : State) : Prop :=
  Memory.wf s.buf = true ∧ Memory.below s.cfg.C s.buf = true ∧ ∀ k, k < s.count → (s.slot k).isSome = true

/-- The invariant of the machine. -/
abbrev State.Inv (s : State) : Prop :=
  s.cfg.wf = true ∧ s.IndexInv ∧ s.FrameInv ∧ s.BufInv ∧ s.tLast < s.cfg.period

/-- Operations taken one after the other, to the first that does not answer a next state. -/
def runAll : List Instr → State → Out
  | [], s => .next s
  | i :: is, s =>
    match exec i s with
    | .next s' => runAll is s'
    | .fault f => .fault f
    | .refused r => .refused r

/-- The row of the opcode table that an edge of level `d` selects, for `st` as the pre-check left it
(30_encoding.md R72). -/
def edgeRow (d : Bool) (s : State) : Instr :=
  match s.st with
  | .idle => if d then .edgeIdleIgnore else .edgeIdleStart
  | .data => .edgeData d
  | .parity => if d = s.par then .edgeParityOk d else .edgeParityFail d
  | .stop => if d then .edgeStopOk else .edgeStopBad

/-- The row of the opcode table that a popped byte selects (30_encoding.md R67, R72). -/
def scanRow (b : Byte) (s : State) : Instr :=
  if b = 0xE0#8 then .scanPrefixExt
  else if b = 0xF0#8 then .scanPrefixBrk
  else if s.brk then .scanCodeRelease b
  else if s.ext then .scanCodeExt b
  else .scanCodeNormal b

/-- The rows that stand for a case of another operation. -/
def isCaseRow : Instr → Bool
  | .edgeIdleStart => true
  | .edgeIdleIgnore => true
  | .edgeData _ => true
  | .edgeParityOk _ => true
  | .edgeParityFail _ => true
  | .edgeStopBad => true
  | .edgeStopOk => true
  | .scanCodeRelease _ => true
  | .scanCodeExt _ => true
  | .scanCodeNormal _ => true
  | .init => false
  | .edge _ _ => false
  | .available => false
  | .readByte => false
  | .nextChar => false
  | .xltStep => false
  | .rbPush _ => false
  | .rbPop => false
  | .rbCount => false
  | .reset => false
  | .frame _ _ _ _ => false
  | .scanPrefixExt => false
  | .scanPrefixBrk => false

/-- The eleven levels of the wire with PARITY `p` and STOP `q`, valid or not (30_encoding.md R61, R64). -/
def wireLevels (b : Byte) (p q : Bool) : List Bool :=
  [false, b.getLsbD 0, b.getLsbD 1, b.getLsbD 2, b.getLsbD 3, b.getLsbD 4, b.getLsbD 5, b.getLsbD 6, b.getLsbD 7, p, q]

/-- No edge comes later than the timeout after the one before it, the first being compared with `last`
(40_edge_clock.md R83, R85). -/
def inTime (c : Config) : Nat → List EdgeEvent → Prop
  | _, [] => True
  | last, e :: es => modSub e.now last c.period ≤ c.timeoutUs ∧ inTime c (e.now % c.period) es

/-- How many delivered edges can follow before the decoder is back in Idle (41_frame_decoder.md R102). -/
def State.edgesLeft (s : State) : Nat :=
  match s.st with
  | .idle => 0
  | .data => 10 - s.idx.toNat
  | .parity => 2
  | .stop => 1

/-- What the spec lets a model assume of the table contents (43_scan_translator.md R126 items 4 and 5): LUTN maps `1C`
to a literal code, LUTE maps `75` to a non-printable one. No part of `Config.wf`: a statement that needs it says so. -/
abbrev tablesMapped (c : Config) : Prop :=
  (0x08 ≤ (lookup c.lutN 0x1C#8).toNat ∧ (lookup c.lutN 0x1C#8).toNat ≤ 0x7E) ∧ 0x80 ≤ (lookup c.lutE 0x75#8).toNat

/-- What one uninterrupted NEXT_CHAR makes of the queued bytes, written from the source's steps 1 to 6
(43_scan_translator.md R127): the code, the two flags after it, the bytes left queued. -/
def pull (c : Config) : Bool → Bool → List Byte → Byte × Bool × Bool × List Byte
  | ext, brk, [] => (0#8, ext, brk, [])
  | ext, brk, b :: q =>
    if b = 0xE0#8 then pull c true brk q
    else if b = 0xF0#8 then pull c ext true q
    else if brk then pull c (ext && !c.breakClearsExt) false q
    else
      let code := if ext then lookup c.lutE b else lookup c.lutN b
      if code ≠ 0#8 then (code, false, false, q) else pull c false false q

/-- What the CONSUMER can tell apart: two states are alike if they are equal, or Idle and equal but for the partial
frame and the last edge's time (93_implementation_defined.md U9). -/
def State.alike (s t : State) : Prop :=
  s = t ∨ (s.st = .idle ∧ t = { s with acc := t.acc, idx := t.idx, par := t.par, tLast := t.tLast })

/-- Outcomes that are alike: the same kind, alike states, the same reason. -/
def Out.alike : Out → Out → Prop
  | .next s, .next t => s.alike t
  | .fault f, .fault g => f = g
  | .refused r, .refused q => r = q
  | _, _ => False

end Sys2Proof.Machine
end

