-- ==== Sys2Proof/Certificates/Slice0/Obligations.lean ====
section
/-! DEFINITION. The statements for the provers. Each docstring names the rule of spec/ it formalises. They hold for every
build (`cfg` is any) unless a premise says otherwise. -/

open Sys2Proof Sys2Proof.Machine

/-! ## Encoding -/

/-- Decoding the bytes of a well-formed instruction, whatever follows them, gives the instruction back and leaves what
follows (30_encoding.md section 4; the byte format is the model's, notes/assumptions/6.md). -/
def Obligations.EncodeThenDecodeGivesInstructionBack : Prop :=
  ∀ (i : Instr) (rest : List Byte), i.wf = true → decode (encode i ++ rest) = .ok (i, rest)

/-- Whatever bytes decode, the instruction is well formed and at least one byte was consumed, from the front
(30_encoding.md section 4, notes/assumptions/6.md). -/
def Obligations.DecodedInstructionIsWellFormed : Prop :=
  ∀ (bs rest : List Byte) (i : Instr), decode bs = .ok (i, rest) →
    i.wf = true ∧ ∃ used, used ≠ [] ∧ bs = used ++ rest

/-- The operation codes of 30_encoding.md R72 and the prefix bytes of R67 decode to their rows; EDGE's operands d and
now and RB_PUSH's byte follow the code. -/
def Obligations.OperationCodesDecodeToTheirRows : Prop :=
  decode [0x0#8] = .ok (.init, []) ∧ decode [0x1#8, 1#8, 2#8, 0x34#8, 0x12#8] = .ok (.edge true 0x1234, []) ∧
  decode [0x2#8] = .ok (.available, []) ∧ decode [0x3#8] = .ok (.readByte, []) ∧
  decode [0x4#8] = .ok (.nextChar, []) ∧ decode [0x5#8] = .ok (.xltStep, []) ∧
  decode [0x6#8, 0x5A#8] = .ok (.rbPush 0x5A#8, []) ∧ decode [0x7#8] = .ok (.rbPop, []) ∧
  decode [0x8#8] = .ok (.rbCount, []) ∧ decode [0xF#8] = .ok (.reset, []) ∧
  decode [0xE0#8] = .ok (.scanPrefixExt, []) ∧ decode [0xF0#8] = .ok (.scanPrefixBrk, [])

/-- The codes 9 to E, which 30_encoding.md R72 leaves unused, are no instruction: the step that meets one is refused by
name (the refusal is the model's, notes/assumptions/6.md). -/
def Obligations.UnusedOperationCodesAreRefused : Prop :=
  ∀ (s : State) (b : Byte) (rest : List Byte), 9 ≤ b.toNat → b.toNat ≤ 14 → s.env = [] → s.prog = b :: rest →
    step s = .refused (.undecoded (.unusedOperation b))

/-! ## The step -/

/-- With no edge event before it, the step runs the instruction that the trace's next bytes decode to, on the state
whose trace goes on behind those bytes (20_memory.md section 4, 30_encoding.md section 5). -/
def Obligations.StepRunsTheDecodedInstruction : Prop :=
  ∀ (s : State) (i : Instr) (rest : List Byte) (es : List (Option EdgeEvent)),
    (s.env = [] ∧ es = []) ∨ s.env = none :: es → decode s.prog = .ok (i, rest) →
    step s = exec i { s with prog := rest, env := es }

/-- An edge event that happens now is taken before the trace's next word, whatever that is; with neither an edge nor a
trace the block holds its state (20_memory.md section 4, 60_exceptions.md section 7; notes/assumptions/7.md, 8.md). -/
def Obligations.EdgeEventPreemptsTheTrace : Prop :=
  (∀ (s : State) (e : EdgeEvent) (es : List (Option EdgeEvent)), s.env = some e :: es →
    step s = exec (.edge e.d e.now) { s with env := es }) ∧
  (∀ (s : State) (es : List (Option EdgeEvent)), (s.env = [] ∧ es = []) ∨ s.env = none :: es → s.prog = [] →
    step s = .next { s with env := es })

/-- `edgeEvents` gives, in order, exactly one event for each trigger transition of the clock line, with the data level
and the counter value of the sample that completes it (30_encoding.md section 1, 00_scope.md section 3). -/
def Obligations.OneEdgeEventPerTriggerTransition : Prop :=
  ∀ (pol : EdgePol) (clk : Bool) (w : List LineSample),
    edgeEvents pol clk w =
      ((List.zip (clk :: w.map LineSample.clk) w).filter
        (fun p => match pol with | .falling => p.1 && !p.2.clk | .rising => !p.1 && p.2.clk)).map
        (fun p => ⟨p.2.data, p.2.now⟩)

/-! ## Reset and INIT -/

/-- The state after power-on: R180's values, no slot of BUF with a value, the buffer empty. The values of the fields
cfg, results, prog, env are the model's (notes/assumptions/2.md, 8.md). -/
def Obligations.PowerOnStateIsAsResetLeavesIt : Prop :=
  State.reset.en = false ∧ State.reset.st = .idle ∧ State.reset.acc = 0#8 ∧ State.reset.idx = 0#4 ∧
  State.reset.par = true ∧ State.reset.tLast = 0 ∧ State.reset.head = 0 ∧ State.reset.tail = 0 ∧
  State.reset.ext = false ∧ State.reset.brk = false ∧ (∀ a, memRead State.reset.buf a = none) ∧
  State.reset.cfg.C = 16 ∧ State.reset.cfg.timeoutUs = 2000 ∧ State.reset.cfg.edgePol = .falling ∧
  State.reset.cfg.breakClearsExt = false ∧ State.reset.cfg.tw = 32

/-- RESET from any state (70_reset_and_hazards.md section 1): every register at its reset value, no slot of BUF with a
value (the model's reading, notes/assumptions/5.md), nothing else changed. -/
def Obligations.ResetWritesEveryRegister : Prop :=
  ∀ s : State, ∃ t, exec .reset s = .next t ∧
    t.en = false ∧ t.st = .idle ∧ t.acc = 0#8 ∧ t.idx = 0#4 ∧ t.par = true ∧ t.tLast = 0 ∧ t.head = 0 ∧ t.tail = 0 ∧
    t.ext = false ∧ t.brk = false ∧ (∀ a, memRead t.buf a = none) ∧
    t.cfg = s.cfg ∧ t.results = s.results ∧ t.prog = s.prog ∧ t.env = s.env

/-- INIT with `en = 0` (R145): the decoder and buffer registers at their reset values, `en` set, the buffer empty and
not full, nothing else changed (neither BUF nor `ext`, `brk`); from the reset state only `en` changes. -/
def Obligations.InitResetsDecoderAndBufferAndEnables : Prop :=
  (∀ s : State, s.en = false → ∃ t, exec .init s = .next t ∧
    t = { s with st := .idle, acc := 0#8, idx := 0#4, par := true, tLast := 0, head := 0, tail := 0, en := true } ∧
    t.count = 0 ∧ t.isEmpty = true ∧ (2 ≤ s.cfg.C → t.isFull = false)) ∧
  exec .init State.reset = .next { State.reset with en := true }

/-- INIT with `en = 1` is refused (R146). -/
def Obligations.SecondInitIsRefused : Prop :=
  ∀ s : State, s.en = true → exec .init s = .refused .reinit

/-- Before INIT, with the queue empty (R151): AVAILABLE gives 0, NEXT_CHAR gives the sentinel with no other change,
READ_BYTE breaks its precondition, and neither an edge nor a frame changes anything. -/
def Obligations.BeforeInitNothingIsReceived : Prop :=
  ∀ s : State, s.en = false → s.head = s.tail →
    exec .available s = .next { s with results := .available false :: s.results } ∧
    exec .nextChar s = .next { s with results := .char 0#8 :: s.results } ∧
    exec .readByte s = .fault .popEmpty ∧
    (∀ d now, exec (.edge d now) s = .next s) ∧
    (∀ b p t dt, exec (.frame b p t dt) s = .next s)

/-! ## The frame decoder -/

/-- While `en = 0` an EDGE writes nothing, not even `t_last` (R91). -/
def Obligations.EdgeBeforeInitChangesNothing : Prop :=
  ∀ (s : State) (d : Bool) (now : Nat), s.en = false → exec (.edge d now) s = .next s

/-- EDGE (R90, R92): with `en = 0` nothing; else `t_last` becomes `now`, `st` becomes Idle when the delta is strictly
above the timeout, and then exactly the one state case that (`st`, `d`, `par`) selects runs on that state. -/
def Obligations.EdgeRunsTheSelectedCase : Prop :=
  (∀ (s : State) (d : Bool) (now : Nat), s.en = false → exec (.edge d now) s = .next s) ∧
  ∀ (s : State) (d : Bool) (now : Nat), s.en = true → s.head < s.cfg.C →
    ∀ s1 : State,
      s1 = { s with
        tLast := now % 2 ^ s.cfg.tw
        st := if s.cfg.timeoutUs < (((now : Int) - s.tLast) % (2 ^ s.cfg.tw : Nat)).toNat then .idle else s.st } →
      ∃ t, exec (.edge d now) s = .next t ∧ exec (edgeRow d s1) s1 = .next t

/-- The delta is the modular difference (R83): no wrap, one wrap, equality, and the spec's example. -/
def Obligations.DeltaIsTheModularDifference : Prop :=
  (∀ (s : State) (now : Nat), s.tLast < s.cfg.period → now < s.cfg.period →
    s.delta now < s.cfg.period ∧
    (s.tLast ≤ now → s.delta now = now - s.tLast) ∧
    (now < s.tLast → s.delta now = now + s.cfg.period - s.tLast) ∧
    (now = s.tLast → s.delta now = 0)) ∧
  (∀ s : State, s.cfg.tw = 16 → s.tLast = 65500 → s.delta 44 = 80)

/-- An edge after a gap above the timeout is a possible start bit, whatever `st` was (R107): with `d = 0` a frame
starts, with `d = 1` the decoder is Idle. -/
def Obligations.EdgeAfterTimeoutIsAPossibleStart : Prop :=
  ∀ (s : State) (d : Bool) (now : Nat), s.en = true → s.cfg.timeoutUs < s.delta now →
    exec (.edge d now) s = .next
      (if d then { s with tLast := now % s.cfg.period, st := .idle }
       else { s with tLast := now % s.cfg.period, st := .data, acc := 0#8, idx := 0#4, par := true })

/-- Idle with `d = 0` (R93): the row, and the delivered EDGE that selects it, which writes `t_last` too. -/
def Obligations.StartBitBeginsAFrame : Prop :=
  ∀ s : State, s.st = .idle →
    exec .edgeIdleStart s = .next { s with acc := 0#8, idx := 0#4, par := true, st := .data } ∧
    (s.en = true → ∀ now, exec (.edge false now) s =
      .next { s with acc := 0#8, idx := 0#4, par := true, st := .data, tLast := now % s.cfg.period })

/-- Idle with `d = 1` (R94): the row writes nothing, and the delivered EDGE that selects it only `t_last`. -/
def Obligations.HighLevelInIdleIsIgnored : Prop :=
  ∀ s : State, s.st = .idle →
    exec .edgeIdleIgnore s = .next s ∧
    (s.en = true → ∀ now, exec (.edge true now) s = .next { s with tLast := now % s.cfg.period })

/-- Data (R95, R96), with the partial frame as R33 says: bit `idx` of `acc` becomes `d` and no other bit changes, which is
the OR of the shifted bit; `par` is XORed with `d`, `idx` counts, and the eighth bit moves `st` to Parity; nothing else
changes. -/
def Obligations.DataEdgeShiftsInOneBit : Prop :=
  ∀ (s : State) (d : Bool), s.FrameInv → s.st = .data → ∃ t, exec (.edgeData d) s = .next t ∧
    (∀ j, j < 8 → t.acc.getLsbD j = if j = s.idx.toNat then d else s.acc.getLsbD j) ∧
    t.acc = s.acc ||| (BitVec.ofNat 8 d.toNat <<< s.idx.toNat) ∧
    t.par = (s.par ^^ d) ∧ t.idx.toNat = s.idx.toNat + 1 ∧
    t.st = (if t.idx.toNat = 8 then .parity else .data) ∧
    t = { s with acc := t.acc, par := t.par, idx := t.idx, st := t.st }

/-- Parity with `d = par` (R97): `st` becomes Stop, nothing else changes. -/
def Obligations.MatchingParityGoesToStop : Prop :=
  ∀ (s : State) (d : Bool), s.st = .parity → d = s.par → exec (.edgeParityOk d) s = .next { s with st := .stop }

/-- Parity with `d /= par` (R98, R157): `st` becomes Idle, nothing is pushed, nothing else changes or is recorded. -/
def Obligations.ParityErrorDiscardsTheByte : Prop :=
  ∀ (s : State) (d : Bool), s.st = .parity → d ≠ s.par → exec (.edgeParityFail d) s = .next { s with st := .idle }

/-- Stop with `d = 1` (R99): RB_PUSH(acc), then `st` becomes Idle, whether or not the push stored the byte. -/
def Obligations.ValidStopBitPushesTheByte : Prop :=
  ∀ s : State, s.st = .stop → s.head < s.cfg.C →
    ∃ u, exec (.rbPush s.acc) s = .next u ∧ exec .edgeStopOk s = .next { u with st := .idle }

/-- Stop with `d = 0` (R100, R156): `st` becomes Idle, nothing is pushed, nothing else changes or is recorded. -/
def Obligations.BadStopBitDiscardsTheByte : Prop :=
  ∀ s : State, s.st = .stop → exec .edgeStopBad s = .next { s with st := .idle }

/-- A dispatch row or a class row that no level and no popped byte selects in a state is refused there by name (the
model's choice, notes/assumptions/11.md, 12.md). -/
def Obligations.UnselectedRowsAreRefused : Prop :=
  ∀ (s : State) (i : Instr), isCaseRow i = true → (∀ d, edgeRow d s ≠ i) → (∀ b, scanRow b s ≠ i) →
    exec i s = .refused .rowNotSelected

/-- Bounded frames (R102): while a frame is in progress, among the next `edgesLeft` delivered edges (ten after the
start bit), whatever their levels and times, one leaves the decoder in Idle or finds it there through a timeout. -/
def Obligations.DecoderReturnsToIdleWithinOneFrame : Prop :=
  ∀ (s : State) (es : List EdgeEvent), s.Inv → s.en = true → s.st ≠ .idle → s.edgesLeft ≤ es.length →
    s.edgesLeft ≤ 10 ∧
    ∃ k t e, k < s.edgesLeft ∧ es[k]? = some e ∧ runEdges (es.take k) s = .next t ∧
      (t.timedOut e.now = true ∨ ∃ u, exec (.edge e.d e.now) t = .next u ∧ u.st = .idle)

/-- Valid frames (R103): eleven delivered edges with the levels of a valid frame of B, from Idle or after a timeout,
each of the last ten in time, end in Idle, perform exactly one RB_PUSH(B), and change nothing else but the decoder's
private registers. -/
def Obligations.ValidFrameQueuesItsByte : Prop :=
  ∀ (s : State) (b : Byte) (e : EdgeEvent) (es : List EdgeEvent),
    s.en = true → (s.st = .idle ∨ s.cfg.timeoutUs < s.delta e.now) → s.head < s.cfg.C →
    (e :: es).map EdgeEvent.d = wireLevels b (parityBit b) true →
    inTime s.cfg (e.now % s.cfg.period) es →
    ∃ t u, runEdges (e :: es) s = .next t ∧ t.st = .idle ∧ exec (.rbPush b) s = .next u ∧
      t = { u with st := t.st, acc := t.acc, idx := t.idx, par := t.par, tLast := t.tLast }

/-- Rejected frames: eleven delivered edges with START 0, eight data bits and either a wrong parity bit or a stop
bit 0, all in time, from Idle, queue nothing; the decoder ends in Idle, or in Data where both are wrong, the stop bit
being taken as a start bit (41_frame_decoder.md sections 4 to 6, 60_exceptions.md section 2). -/
def Obligations.InvalidFrameQueuesNothing : Prop :=
  ∀ (s : State) (b : Byte) (p q : Bool) (e : EdgeEvent) (es : List EdgeEvent),
    s.en = true → s.st = .idle →
    (e :: es).map EdgeEvent.d = wireLevels b p q → (p ≠ parityBit b ∨ q = false) →
    inTime s.cfg (e.now % s.cfg.period) es →
    ∃ t, runEdges (e :: es) s = .next t ∧
      t.st = (if p ≠ parityBit b ∧ q = false then .data else .idle) ∧
      t = { s with st := t.st, acc := t.acc, idx := t.idx, par := t.par, tLast := t.tLast }

/-- The FRAME word, from Idle with `en = 1` and a spacing within the timeout: with the valid parity bit it performs
RB_PUSH of the byte, with the other one it queues nothing, and either way the decoder is in Idle after (30_encoding.md
sections 2 and 5; that the eleven edges are one step is the model's choice, notes/assumptions/13.md). -/
def Obligations.FrameWordDeliversItsByte : Prop :=
  ∀ (s : State) (b : Byte) (t dt : Nat), s.cfg.wf = true → s.en = true → s.st = .idle → s.head < s.cfg.C →
    dt ≤ s.cfg.timeoutUs →
    (∃ u, exec (.rbPush b) s = .next u ∧
      exec (.frame b (parityBit b) t dt) s = .next
        { u with st := .idle, acc := b, idx := 8#4, par := parityBit b, tLast := (t + 10 * dt) % s.cfg.period }) ∧
    exec (.frame b (!parityBit b) t dt) s = .next
      { s with st := .idle, acc := b, idx := 8#4, par := parityBit b, tLast := (t + 10 * dt) % s.cfg.period }

/-- The FRAME word is its eleven EDGE operations, `dt` apart (30_encoding.md section 5; notes/assumptions/13.md). -/
def Obligations.FrameWordIsElevenEdges : Prop :=
  ∀ (s : State) (b : Byte) (p : Bool) (t dt : Nat),
    exec (.frame b p t dt) s =
      runAll ((wireLevels b p true).mapIdx (fun k d => .edge d (t + k * dt))) s

/-! ## The ring buffer -/

/-- RB_COUNT (R110): the occupancy is the modular difference of the indices; nothing but the result is written. -/
def Obligations.CountIsTheModularOccupancy : Prop :=
  ∀ s : State, s.head < s.cfg.C → s.tail < s.cfg.C → ∃ n, exec .rbCount s = .next { s with results := .count n :: s.results } ∧
    n < s.cfg.C ∧ (s.tail ≤ s.head → n = s.head - s.tail) ∧ (s.head < s.tail → n = s.head + s.cfg.C - s.tail)

/-- Empty and full (R111) for indices in range: `count = 0` and `count = C - 1`, never both; a full buffer's slot
`head`, like every other, is not written by a push. -/
def Obligations.EmptyAndFullByOccupancy : Prop :=
  ∀ s : State, 2 ≤ s.cfg.C → s.head < s.cfg.C → s.tail < s.cfg.C →
    (s.count = 0 ↔ s.head = s.tail) ∧ (s.count = s.cfg.C - 1 ↔ (s.head + 1) % s.cfg.C = s.tail) ∧
    (s.isEmpty = true ↔ s.count = 0) ∧ (s.isFull = true ↔ s.count = s.cfg.C - 1) ∧
    ¬(s.isEmpty = true ∧ s.isFull = true) ∧ (s.isFull = true → ∀ b, exec (.rbPush b) s = .next s)

/-- RB_PUSH (R112): when not full the byte is written to slot `head` and `head` moves; every other slot and every other
register is unchanged; the buffer is then not empty, and full exactly when the last usable slot was filled. When full
nothing at all changes: the newest byte is dropped. -/
def Obligations.PushStoresOrDropsTheNewest : Prop :=
  (∀ (s : State) (b : Byte), (s.head + 1) % s.cfg.C = s.tail → exec (.rbPush b) s = .next s) ∧
  (∀ (s : State) (b : Byte), (s.head + 1) % s.cfg.C ≠ s.tail → s.head < s.cfg.C → ∃ t, exec (.rbPush b) s = .next t ∧
    t.head = (s.head + 1) % s.cfg.C ∧ memRead t.buf s.head = some b ∧
    (∀ a, a ≠ s.head → memRead t.buf a = memRead s.buf a) ∧
    t = { s with buf := t.buf, head := t.head } ∧ t.isEmpty = false ∧
    (s.tail < s.cfg.C → (t.isFull = true ↔ s.count + 2 = s.cfg.C)))

/-- RB_POP (R113): the byte of slot `tail` is returned and `tail` moves; nothing else changes. The buffer is then not
full, and empty exactly when the last byte was popped. -/
def Obligations.PopReturnsTheByteAtTail : Prop :=
  ∀ (s : State) (b : Byte), s.head ≠ s.tail → s.tail < s.cfg.C → memRead s.buf s.tail = some b →
    ∃ t, exec .rbPop s = .next t ∧
      t = { s with tail := (s.tail + 1) % s.cfg.C, results := .popped b :: s.results } ∧
      (s.head < s.cfg.C → t.isFull = false ∧ (t.isEmpty = true ↔ s.count = 1))

/-- A pop of the empty buffer is a fault (R114); XLT_STEP and NEXT_CHAR test the occupancy first and never reach it. -/
def Obligations.PopOfEmptyBufferFaults : Prop :=
  (∀ s : State, s.head = s.tail → exec .rbPop s = .fault .popEmpty ∧ exec .readByte s = .fault .popEmpty) ∧
  (∀ s : State, exec .xltStep s ≠ .fault .popEmpty ∧ exec .nextChar s ≠ .fault .popEmpty)

/-- The ring is a first-in first-out queue (20_memory.md section 5, 42_ring_buffer.md R117): a push that is not dropped
appends its byte, a pop takes the oldest, the others keep their order and values. -/
def Obligations.RingIsAFifoQueue : Prop :=
  (∀ (s : State) (b : Byte), s.Inv → s.isFull = false →
    ∃ t, exec (.rbPush b) s = .next t ∧ t.queue = s.queue ++ [some b] ∧ t.count = s.count + 1) ∧
  (∀ s : State, s.Inv → s.isEmpty = false → ∃ t b, exec .rbPop s = .next t ∧ s.queue = some b :: t.queue ∧
    t.results = .popped b :: s.results ∧ s.count = t.count + 1)

/-- Pushes onto an empty buffer with no pop in between queue the first `C - 1` bytes, in order, and drop the rest
(42_ring_buffer.md section on properties, R117). -/
def Obligations.PushesFillTheRingThenDrop : Prop :=
  ∀ (s : State) (bs : List Byte), s.Inv → s.isEmpty = true →
    ∃ t, runAll (bs.map .rbPush) s = .next t ∧ t.queue = (bs.take (s.cfg.C - 1)).map some ∧ t.tail = s.tail

/-! ## Public operations and the translator -/

/-- AVAILABLE (R147): whether at least one byte is queued; nothing but the result is written. -/
def Obligations.AvailableTellsWhetherAByteIsQueued : Prop :=
  ∀ s : State, s.head < s.cfg.C → s.tail < s.cfg.C →
    exec .available s = .next { s with results := .available (decide (s.head ≠ s.tail)) :: s.results }

/-- READ_BYTE (R148): the oldest byte is returned and removed; `ext` and `brk` are neither read nor written. -/
def Obligations.ReadByteRemovesTheOldestByte : Prop :=
  ∀ (s : State) (b : Byte), s.head ≠ s.tail → s.tail < s.cfg.C → memRead s.buf s.tail = some b →
    exec .readByte s = .next { s with tail := (s.tail + 1) % s.cfg.C, results := .byte b :: s.results }

/-- The prefix rows (43_scan_translator.md section 2, steps 2 and 3): each sets its flag and gives Continue. -/
def Obligations.PrefixBytesSetTheirFlag : Prop :=
  ∀ s : State,
    exec .scanPrefixExt s = .next { s with ext := true, results := .continues :: s.results } ∧
    exec .scanPrefixBrk s = .next { s with brk := true, results := .continues :: s.results }

/-- The release row (43_scan_translator.md R131, R133): Continue without any lookup, `brk` cleared, `ext` cleared only
where the build says so. -/
def Obligations.ReleaseCodeIsSuppressed : Prop :=
  ∀ (s : State) (c : Byte), c ≠ 0xE0#8 → c ≠ 0xF0#8 → s.brk = true →
    exec (.scanCodeRelease c) s = .next
      { s with brk := false, ext := (s.ext && !s.cfg.breakClearsExt), results := .continues :: s.results }

/-- The extended row (R132): the lookup is in LUTE, and `ext` is cleared whether the entry is mapped or not. -/
def Obligations.ExtendedCodeIsLookedUpAndClearsExt : Prop :=
  ∀ (s : State) (c : Byte), c ≠ 0xE0#8 → c ≠ 0xF0#8 → s.brk = false → s.ext = true →
    exec (.scanCodeExt c) s = .next
      { s with
        ext := false
        results := (if lookup s.cfg.lutE c = 0#8 then .continues else .done (lookup s.cfg.lutE c)) :: s.results }

/-- The normal row (43_scan_translator.md section 2, step 5): the lookup is in LUTN, no flag changes. -/
def Obligations.NormalCodeIsLookedUp : Prop :=
  ∀ (s : State) (c : Byte), c ≠ 0xE0#8 → c ≠ 0xF0#8 → s.brk = false → s.ext = false →
    exec (.scanCodeNormal c) s = .next
      { s with
        results := (if lookup s.cfg.lutN c = 0#8 then .continues else .done (lookup s.cfg.lutN c)) :: s.results }

/-- With the buffer empty XLT_STEP is Done with the sentinel and NEXT_CHAR returns it; nothing else changes
(43_scan_translator.md sections 2 and 3). -/
def Obligations.EmptyBufferGivesTheSentinel : Prop :=
  ∀ s : State, s.head = s.tail →
    exec .xltStep s = .next { s with results := .done 0#8 :: s.results } ∧
    exec .nextChar s = .next { s with results := .char 0#8 :: s.results }

/-- XLT_STEP with a byte queued pops it and then is exactly the row its value and the flags select, on the state after
the pop (43_scan_translator.md section 2, 30_encoding.md section 3). -/
def Obligations.XltStepRunsTheSelectedRow : Prop :=
  ∀ (s : State) (b : Byte), s.head < s.cfg.C → s.tail < s.cfg.C → s.head ≠ s.tail → memRead s.buf s.tail = some b →
    ∀ s1 : State, s1 = { s with tail := (s.tail + 1) % s.cfg.C } →
      ∃ t, exec .xltStep s = .next t ∧ exec (scanRow b s1) s1 = .next t

/-- The order of the tests (R129): a prefix is never suppressed or looked up whatever the flags, `F0` leaves a set `brk`
set, `E0` sets `ext` and leaves `brk`, and a CODE byte with both flags set is suppressed without clearing `ext` by a
lookup. -/
def Obligations.PrefixTestsComeFirst : Prop :=
  ∀ (s : State) (b : Byte), s.head < s.cfg.C → s.tail < s.cfg.C → s.head ≠ s.tail → memRead s.buf s.tail = some b →
    ∃ t, exec .xltStep s = .next t ∧
      (b = 0xE0#8 → t.results = .continues :: s.results ∧ t.ext = true ∧ t.brk = s.brk) ∧
      (b = 0xF0#8 → t.results = .continues :: s.results ∧ t.ext = s.ext ∧ t.brk = true) ∧
      (b ≠ 0xE0#8 → b ≠ 0xF0#8 → s.brk = true →
        t.results = .continues :: s.results ∧ t.ext = (s.ext && !s.cfg.breakClearsExt) ∧ t.brk = false)

/-- NEXT_CHAR is its loop of XLT_STEPs (43_scan_translator.md section 3): each step of it is one XLT_STEP, and either
that is Done with a code, which the call returns, or it is Continue, and the call stays next in the trace (the model's
way to loop, notes/assumptions/9.md). -/
def Obligations.NextCharIsALoopOfXltSteps : Prop :=
  ∀ s : State, s.Inv → ∃ t, exec .xltStep s = .next t ∧
    ((∃ c, t.results = .done c :: s.results ∧ exec .nextChar s = .next { t with results := .char c :: s.results }) ∨
     (t.results = .continues :: s.results ∧
       exec .nextChar s = .next { t with results := s.results, prog := encode .nextChar ++ s.prog }))

/-- With no edge during the call, NEXT_CHAR ends within `count + 1 <= C` steps, returns the code that the source's
six steps give for the queued bytes, leaves the flags as they say and queued what they leave (43_scan_translator.md
sections 2 and 3; the staying of the call in the trace is the model's, notes/assumptions/9.md). -/
def Obligations.NextCharTranslatesTheQueue : Prop :=
  ∀ (s : State) (q : List Byte) (rest : List Byte), s.Inv → s.env = [] → s.prog = encode .nextChar ++ rest →
    s.queue = q.map some →
    ∃ k t, 1 ≤ k ∧ k ≤ s.count + 1 ∧ s.count + 1 ≤ s.cfg.C ∧ Host.Core.run Sys2Proof.core k s = .next t ∧
      (t.results, t.ext, t.brk, t.queue) =
        (.char (pull s.cfg s.ext s.brk q).1 :: s.results, (pull s.cfg s.ext s.brk q).2.1,
          (pull s.cfg s.ext s.brk q).2.2.1, (pull s.cfg s.ext s.brk q).2.2.2.map some) ∧
      t = { s with prog := rest, results := t.results, ext := t.ext, brk := t.brk, tail := t.tail }

/-- The release of an extended key, `E0 F0 xx` (30_encoding.md R68, 43_scan_translator.md R133): three iterations give
Continue, `brk` is clear after, and `ext` stays set exactly where the build does not clear it. -/
def Obligations.ExtendedReleaseKeepsExtByBuild : Prop :=
  ∀ (s : State) (c : Byte) (q : List (Option Byte)), s.Inv → c ≠ 0xE0#8 → c ≠ 0xF0#8 →
    s.ext = false → s.brk = false → s.queue = some 0xE0#8 :: some 0xF0#8 :: some c :: q →
    ∃ t, runAll [.xltStep, .xltStep, .xltStep] s = .next t ∧
      t.ext = !s.cfg.breakClearsExt ∧ t.brk = false ∧ t.queue = q ∧
      t.results = .continues :: .continues :: .continues :: s.results

/-- The two entries of which the spec says that they are mapped (43_scan_translator.md section 1, taken here as a
premise on the build): with clear flags the queued byte `1C` gives LUTN's code for it at once, in the low range and not
the sentinel, and `E0 75` gives LUTE's code in the high range, after which `ext` is clear. -/
def Obligations.MappedKeysGiveTheirCode : Prop :=
  ∀ (s : State) (q : List (Option Byte)), s.Inv → tablesMapped s.cfg → s.ext = false → s.brk = false →
    (s.queue = some 0x1C#8 :: q → ∃ t, exec .nextChar s = .next t ∧ t.queue = q ∧
      t.results = .char (lookup s.cfg.lutN 0x1C#8) :: s.results ∧ t.ext = false ∧ t.brk = false ∧
      lookup s.cfg.lutN 0x1C#8 ≠ 0#8) ∧
    (s.queue = some 0xE0#8 :: some 0x75#8 :: q → ∃ t, runAll [.xltStep, .xltStep] s = .next t ∧ t.queue = q ∧
      t.results = .done (lookup s.cfg.lutE 0x75#8) :: .continues :: s.results ∧ t.ext = false ∧ t.brk = false ∧
      lookup s.cfg.lutE 0x75#8 ≠ 0#8)

/-- Nothing but the translator and RESET writes `ext` and `brk`: INIT and the reading of raw bytes do not
(10_state.md R24, R25, 43_scan_translator.md R130). -/
def Obligations.PrefixFlagsAreSticky : Prop :=
  ∀ (i : Instr) (s t : State), exec i s = .next t → t.ext ≠ s.ext ∨ t.brk ≠ s.brk →
    i = .xltStep ∨ i = .nextChar ∨ i = .reset ∨ i = .scanPrefixExt ∨ i = .scanPrefixBrk ∨
    (∃ c, i = .scanCodeRelease c) ∨ ∃ c, i = .scanCodeExt c

/-! ## The whole machine -/

/-- The invariant holds after reset (10_state.md R32, R33, 20_memory.md R56). -/
def Obligations.ResetStateMeetsTheInvariant : Prop := State.reset.Inv

/-- Every step keeps the invariant: the indices and the occupancy in range (R32), the partial frame as R33 says, BUF in
canonical form and every queued slot written (R56). -/
def Obligations.EveryStepKeepsTheInvariant : Prop :=
  ∀ s t : State, s.Inv → step s = .next t → t.Inv

/-- A CONSUMER operation other than INIT, and RB_COUNT, writes only `tail`, `ext`, `brk` and what it returns: no decoder
register, neither `head` nor BUF nor `en` (00_scope.md section 4, 10_state.md section 12, 41_frame_decoder.md R106). -/
def Obligations.ConsumerWritesOnlyItsOwnState : Prop :=
  ∀ (i : Instr) (s t : State), agentOf i = .consumer ∨ agentOf i = .either → i ≠ .init → exec i s = .next t →
    t = { s with tail := t.tail, ext := t.ext, brk := t.brk, results := t.results, prog := t.prog } ∧
    (i ≠ .nextChar → t.prog = s.prog) ∧
    (∀ a, memRead t.buf a = memRead s.buf a) ∧
    (i = .available ∨ i = .rbCount → t = { s with results := t.results })

/-- A PRODUCER operation completes, or it is a dispatch row that no level selects in its state (refused there by the
model's choice, notes/assumptions/11.md); it writes only the decoder's registers, `head` and the slot at `head`, and it
returns nothing to anyone, so that every error is silent (00_scope.md section 4, 60_exceptions.md sections 2 and 3). -/
def Obligations.ProducerWritesOnlyItsOwnState : Prop :=
  ∀ (i : Instr) (s : State), agentOf i = .producer → s.Inv →
    (exec i s = .refused .rowNotSelected ∧ isCaseRow i = true ∧ ∀ d, edgeRow d s ≠ i) ∨
    ∃ t, exec i s = .next t ∧
      t = { s with st := t.st, acc := t.acc, idx := t.idx, par := t.par, tLast := t.tLast, head := t.head, buf := t.buf } ∧
      (∀ a, a ≠ s.head → memRead t.buf a = memRead s.buf a) ∧
      (t.head = s.head ∧ t.buf = s.buf ∨ t.head = (s.head + 1) % s.cfg.C ∧ s.isFull = false)

/-- Where the machine stops (R173, and the rows of notes/assumptions/11.md, 12.md): in a state that meets the invariant
the only fault is a pop of the empty buffer, the only refusals a second INIT and a row that no level and no popped byte
selects, and every other operation answers a next state. -/
def Obligations.OnlyTheListedOperationsStop : Prop :=
  ∀ (i : Instr) (s : State), s.Inv →
    (∃ t, exec i s = .next t) ∨
    (exec i s = .fault .popEmpty ∧ s.head = s.tail ∧ (i = .readByte ∨ i = .rbPop)) ∨
    (exec i s = .refused .reinit ∧ s.en = true ∧ i = .init) ∨
    (exec i s = .refused .rowNotSelected ∧ isCaseRow i = true ∧ (∀ d, edgeRow d s ≠ i) ∧ ∀ b, scanRow b s ≠ i)

/-- No step changes the build, and `en`, once set, is cleared by RESET only (00_scope.md section 3, 10_state.md R26). -/
def Obligations.BuildIsConstantAndEnableIsNeverCleared : Prop :=
  (∀ s t : State, step s = .next t → t.cfg = s.cfg) ∧
  (∀ (i : Instr) (s t : State), exec i s = .next t → s.en = true → t.en = false → i = .reset)

/-- What was returned is never changed, each operation adds at most one value, and only an operation of the CONSUMER (or
RB_COUNT, which either side may call) adds one (00_scope.md R11, notes/assumptions/10.md). -/
def Obligations.OnlyConsumerOperationsReturnValues : Prop :=
  ∀ (i : Instr) (s t : State), exec i s = .next t →
    t.results = s.results ∨ (∃ r, t.results = r :: s.results) ∧ (agentOf i = .consumer ∨ agentOf i = .either)

/-- The queue changes at its two ends only (20_memory.md R55, 42_ring_buffer.md R118): except for INIT and RESET, an
operation takes at most one byte off the front, and then it is the CONSUMER's, or adds at most one behind, and then it
is the PRODUCER's. -/
def Obligations.QueueChangesAtItsEndsOnly : Prop :=
  ∀ (i : Instr) (s t : State), s.Inv → i ≠ .init → i ≠ .reset → exec i s = .next t →
    t.queue = s.queue ∨
    (agentOf i = .consumer ∧ ∃ b, s.queue = b :: t.queue) ∨
    (agentOf i = .producer ∧ ∃ b, t.queue = s.queue ++ [some b])

/-- The partial frame and the last edge's time are unobservable while the decoder is Idle (41_frame_decoder.md R101,
10_state.md R20, 93_implementation_defined.md U9): two states that differ in them only answer alike, with the same
results, to every operation. (The row EDGE.IDLE.START, which is EDGE without its time stamp, is left out.) -/
def Obligations.IdleRegistersAreUnobservable : Prop :=
  ∀ (i : Instr) (s t : State), i ≠ .edgeIdleStart → s.alike t → Out.alike (exec i s) (exec i t)
end

