-- ==== Sys2Proof/Laws/State.lean ====
section
/-! SUPPORT. What each named update does to each field of State: one lemma per field, true by rfl. -/

namespace Sys2Proof.Machine

open Sys2Proof

@[simp] theorem State.resync_cfg (s : State) : s.resync.cfg = s.cfg := rfl
@[simp] theorem State.resync_en (s : State) : s.resync.en = s.en := rfl
@[simp] theorem State.resync_st (s : State) : s.resync.st = .idle := rfl
@[simp] theorem State.resync_acc (s : State) : s.resync.acc = s.acc := rfl
@[simp] theorem State.resync_idx (s : State) : s.resync.idx = s.idx := rfl
@[simp] theorem State.resync_par (s : State) : s.resync.par = s.par := rfl
@[simp] theorem State.resync_tLast (s : State) : s.resync.tLast = s.tLast := rfl
@[simp] theorem State.resync_head (s : State) : s.resync.head = s.head := rfl
@[simp] theorem State.resync_tail (s : State) : s.resync.tail = s.tail := rfl
@[simp] theorem State.resync_buf (s : State) : s.resync.buf = s.buf := rfl
@[simp] theorem State.resync_ext (s : State) : s.resync.ext = s.ext := rfl
@[simp] theorem State.resync_brk (s : State) : s.resync.brk = s.brk := rfl
@[simp] theorem State.resync_results (s : State) : s.resync.results = s.results := rfl
@[simp] theorem State.resync_prog (s : State) : s.resync.prog = s.prog := rfl
@[simp] theorem State.resync_env (s : State) : s.resync.env = s.env := rfl

@[simp] theorem State.startFrame_cfg (s : State) : s.startFrame.cfg = s.cfg := rfl
@[simp] theorem State.startFrame_en (s : State) : s.startFrame.en = s.en := rfl
@[simp] theorem State.startFrame_st (s : State) : s.startFrame.st = .data := rfl
@[simp] theorem State.startFrame_acc (s : State) : s.startFrame.acc = 0#8 := rfl
@[simp] theorem State.startFrame_idx (s : State) : s.startFrame.idx = 0#4 := rfl
@[simp] theorem State.startFrame_par (s : State) : s.startFrame.par = true := rfl
@[simp] theorem State.startFrame_tLast (s : State) : s.startFrame.tLast = s.tLast := rfl
@[simp] theorem State.startFrame_head (s : State) : s.startFrame.head = s.head := rfl
@[simp] theorem State.startFrame_tail (s : State) : s.startFrame.tail = s.tail := rfl
@[simp] theorem State.startFrame_buf (s : State) : s.startFrame.buf = s.buf := rfl
@[simp] theorem State.startFrame_ext (s : State) : s.startFrame.ext = s.ext := rfl
@[simp] theorem State.startFrame_brk (s : State) : s.startFrame.brk = s.brk := rfl
@[simp] theorem State.startFrame_results (s : State) : s.startFrame.results = s.results := rfl
@[simp] theorem State.startFrame_prog (s : State) : s.startFrame.prog = s.prog := rfl
@[simp] theorem State.startFrame_env (s : State) : s.startFrame.env = s.env := rfl

@[simp] theorem State.shiftIn_cfg (s : State) (d : Bool) : (s.shiftIn d).cfg = s.cfg := rfl
@[simp] theorem State.shiftIn_en (s : State) (d : Bool) : (s.shiftIn d).en = s.en := rfl
@[simp] theorem State.shiftIn_st (s : State) (d : Bool) : (s.shiftIn d).st = if s.idx + 1#4 = 8#4 then .parity else s.st := rfl
@[simp] theorem State.shiftIn_acc (s : State) (d : Bool) : (s.shiftIn d).acc = writeBit s.acc s.idx d := rfl
@[simp] theorem State.shiftIn_idx (s : State) (d : Bool) : (s.shiftIn d).idx = s.idx + 1#4 := rfl
@[simp] theorem State.shiftIn_par (s : State) (d : Bool) : (s.shiftIn d).par = parityStep s.par d := rfl
@[simp] theorem State.shiftIn_tLast (s : State) (d : Bool) : (s.shiftIn d).tLast = s.tLast := rfl
@[simp] theorem State.shiftIn_head (s : State) (d : Bool) : (s.shiftIn d).head = s.head := rfl
@[simp] theorem State.shiftIn_tail (s : State) (d : Bool) : (s.shiftIn d).tail = s.tail := rfl
@[simp] theorem State.shiftIn_buf (s : State) (d : Bool) : (s.shiftIn d).buf = s.buf := rfl
@[simp] theorem State.shiftIn_ext (s : State) (d : Bool) : (s.shiftIn d).ext = s.ext := rfl
@[simp] theorem State.shiftIn_brk (s : State) (d : Bool) : (s.shiftIn d).brk = s.brk := rfl
@[simp] theorem State.shiftIn_results (s : State) (d : Bool) : (s.shiftIn d).results = s.results := rfl
@[simp] theorem State.shiftIn_prog (s : State) (d : Bool) : (s.shiftIn d).prog = s.prog := rfl
@[simp] theorem State.shiftIn_env (s : State) (d : Bool) : (s.shiftIn d).env = s.env := rfl

@[simp] theorem State.toStop_cfg (s : State) : s.toStop.cfg = s.cfg := rfl
@[simp] theorem State.toStop_en (s : State) : s.toStop.en = s.en := rfl
@[simp] theorem State.toStop_st (s : State) : s.toStop.st = .stop := rfl
@[simp] theorem State.toStop_acc (s : State) : s.toStop.acc = s.acc := rfl
@[simp] theorem State.toStop_idx (s : State) : s.toStop.idx = s.idx := rfl
@[simp] theorem State.toStop_par (s : State) : s.toStop.par = s.par := rfl
@[simp] theorem State.toStop_tLast (s : State) : s.toStop.tLast = s.tLast := rfl
@[simp] theorem State.toStop_head (s : State) : s.toStop.head = s.head := rfl
@[simp] theorem State.toStop_tail (s : State) : s.toStop.tail = s.tail := rfl
@[simp] theorem State.toStop_buf (s : State) : s.toStop.buf = s.buf := rfl
@[simp] theorem State.toStop_ext (s : State) : s.toStop.ext = s.ext := rfl
@[simp] theorem State.toStop_brk (s : State) : s.toStop.brk = s.brk := rfl
@[simp] theorem State.toStop_results (s : State) : s.toStop.results = s.results := rfl
@[simp] theorem State.toStop_prog (s : State) : s.toStop.prog = s.prog := rfl
@[simp] theorem State.toStop_env (s : State) : s.toStop.env = s.env := rfl

@[simp] theorem State.returned_cfg (s : State) (r : Ret) : (s.returned r).cfg = s.cfg := rfl
@[simp] theorem State.returned_en (s : State) (r : Ret) : (s.returned r).en = s.en := rfl
@[simp] theorem State.returned_st (s : State) (r : Ret) : (s.returned r).st = s.st := rfl
@[simp] theorem State.returned_acc (s : State) (r : Ret) : (s.returned r).acc = s.acc := rfl
@[simp] theorem State.returned_idx (s : State) (r : Ret) : (s.returned r).idx = s.idx := rfl
@[simp] theorem State.returned_par (s : State) (r : Ret) : (s.returned r).par = s.par := rfl
@[simp] theorem State.returned_tLast (s : State) (r : Ret) : (s.returned r).tLast = s.tLast := rfl
@[simp] theorem State.returned_head (s : State) (r : Ret) : (s.returned r).head = s.head := rfl
@[simp] theorem State.returned_tail (s : State) (r : Ret) : (s.returned r).tail = s.tail := rfl
@[simp] theorem State.returned_buf (s : State) (r : Ret) : (s.returned r).buf = s.buf := rfl
@[simp] theorem State.returned_ext (s : State) (r : Ret) : (s.returned r).ext = s.ext := rfl
@[simp] theorem State.returned_brk (s : State) (r : Ret) : (s.returned r).brk = s.brk := rfl
@[simp] theorem State.returned_results (s : State) (r : Ret) : (s.returned r).results = r :: s.results := rfl
@[simp] theorem State.returned_prog (s : State) (r : Ret) : (s.returned r).prog = s.prog := rfl
@[simp] theorem State.returned_env (s : State) (r : Ret) : (s.returned r).env = s.env := rfl

@[simp] theorem State.setExt_cfg (s : State) : s.setExt.cfg = s.cfg := rfl
@[simp] theorem State.setExt_en (s : State) : s.setExt.en = s.en := rfl
@[simp] theorem State.setExt_st (s : State) : s.setExt.st = s.st := rfl
@[simp] theorem State.setExt_acc (s : State) : s.setExt.acc = s.acc := rfl
@[simp] theorem State.setExt_idx (s : State) : s.setExt.idx = s.idx := rfl
@[simp] theorem State.setExt_par (s : State) : s.setExt.par = s.par := rfl
@[simp] theorem State.setExt_tLast (s : State) : s.setExt.tLast = s.tLast := rfl
@[simp] theorem State.setExt_head (s : State) : s.setExt.head = s.head := rfl
@[simp] theorem State.setExt_tail (s : State) : s.setExt.tail = s.tail := rfl
@[simp] theorem State.setExt_buf (s : State) : s.setExt.buf = s.buf := rfl
@[simp] theorem State.setExt_ext (s : State) : s.setExt.ext = true := rfl
@[simp] theorem State.setExt_brk (s : State) : s.setExt.brk = s.brk := rfl
@[simp] theorem State.setExt_results (s : State) : s.setExt.results = s.results := rfl
@[simp] theorem State.setExt_prog (s : State) : s.setExt.prog = s.prog := rfl
@[simp] theorem State.setExt_env (s : State) : s.setExt.env = s.env := rfl

@[simp] theorem State.setBrk_cfg (s : State) : s.setBrk.cfg = s.cfg := rfl
@[simp] theorem State.setBrk_en (s : State) : s.setBrk.en = s.en := rfl
@[simp] theorem State.setBrk_st (s : State) : s.setBrk.st = s.st := rfl
@[simp] theorem State.setBrk_acc (s : State) : s.setBrk.acc = s.acc := rfl
@[simp] theorem State.setBrk_idx (s : State) : s.setBrk.idx = s.idx := rfl
@[simp] theorem State.setBrk_par (s : State) : s.setBrk.par = s.par := rfl
@[simp] theorem State.setBrk_tLast (s : State) : s.setBrk.tLast = s.tLast := rfl
@[simp] theorem State.setBrk_head (s : State) : s.setBrk.head = s.head := rfl
@[simp] theorem State.setBrk_tail (s : State) : s.setBrk.tail = s.tail := rfl
@[simp] theorem State.setBrk_buf (s : State) : s.setBrk.buf = s.buf := rfl
@[simp] theorem State.setBrk_ext (s : State) : s.setBrk.ext = s.ext := rfl
@[simp] theorem State.setBrk_brk (s : State) : s.setBrk.brk = true := rfl
@[simp] theorem State.setBrk_results (s : State) : s.setBrk.results = s.results := rfl
@[simp] theorem State.setBrk_prog (s : State) : s.setBrk.prog = s.prog := rfl
@[simp] theorem State.setBrk_env (s : State) : s.setBrk.env = s.env := rfl

@[simp] theorem State.release_cfg (s : State) : s.release.cfg = s.cfg := rfl
@[simp] theorem State.release_en (s : State) : s.release.en = s.en := rfl
@[simp] theorem State.release_st (s : State) : s.release.st = s.st := rfl
@[simp] theorem State.release_acc (s : State) : s.release.acc = s.acc := rfl
@[simp] theorem State.release_idx (s : State) : s.release.idx = s.idx := rfl
@[simp] theorem State.release_par (s : State) : s.release.par = s.par := rfl
@[simp] theorem State.release_tLast (s : State) : s.release.tLast = s.tLast := rfl
@[simp] theorem State.release_head (s : State) : s.release.head = s.head := rfl
@[simp] theorem State.release_tail (s : State) : s.release.tail = s.tail := rfl
@[simp] theorem State.release_buf (s : State) : s.release.buf = s.buf := rfl
@[simp] theorem State.release_ext (s : State) : s.release.ext = if s.cfg.breakClearsExt then false else s.ext := rfl
@[simp] theorem State.release_brk (s : State) : s.release.brk = false := rfl
@[simp] theorem State.release_results (s : State) : s.release.results = s.results := rfl
@[simp] theorem State.release_prog (s : State) : s.release.prog = s.prog := rfl
@[simp] theorem State.release_env (s : State) : s.release.env = s.env := rfl

@[simp] theorem State.clearDecoder_cfg (s : State) : s.clearDecoder.cfg = s.cfg := rfl
@[simp] theorem State.clearDecoder_en (s : State) : s.clearDecoder.en = s.en := rfl
@[simp] theorem State.clearDecoder_st (s : State) : s.clearDecoder.st = .idle := rfl
@[simp] theorem State.clearDecoder_acc (s : State) : s.clearDecoder.acc = 0#8 := rfl
@[simp] theorem State.clearDecoder_idx (s : State) : s.clearDecoder.idx = 0#4 := rfl
@[simp] theorem State.clearDecoder_par (s : State) : s.clearDecoder.par = true := rfl
@[simp] theorem State.clearDecoder_tLast (s : State) : s.clearDecoder.tLast = 0 := rfl
@[simp] theorem State.clearDecoder_head (s : State) : s.clearDecoder.head = 0 := rfl
@[simp] theorem State.clearDecoder_tail (s : State) : s.clearDecoder.tail = 0 := rfl
@[simp] theorem State.clearDecoder_buf (s : State) : s.clearDecoder.buf = s.buf := rfl
@[simp] theorem State.clearDecoder_ext (s : State) : s.clearDecoder.ext = s.ext := rfl
@[simp] theorem State.clearDecoder_brk (s : State) : s.clearDecoder.brk = s.brk := rfl
@[simp] theorem State.clearDecoder_results (s : State) : s.clearDecoder.results = s.results := rfl
@[simp] theorem State.clearDecoder_prog (s : State) : s.clearDecoder.prog = s.prog := rfl
@[simp] theorem State.clearDecoder_env (s : State) : s.clearDecoder.env = s.env := rfl

@[simp] theorem State.precheck_cfg (s : State) (now : Nat) : (s.precheck now).cfg = s.cfg := by
  unfold State.precheck; split <;> rfl
@[simp] theorem State.precheck_en (s : State) (now : Nat) : (s.precheck now).en = s.en := by
  unfold State.precheck; split <;> rfl
@[simp] theorem State.precheck_acc (s : State) (now : Nat) : (s.precheck now).acc = s.acc := by
  unfold State.precheck; split <;> rfl
@[simp] theorem State.precheck_idx (s : State) (now : Nat) : (s.precheck now).idx = s.idx := by
  unfold State.precheck; split <;> rfl
@[simp] theorem State.precheck_par (s : State) (now : Nat) : (s.precheck now).par = s.par := by
  unfold State.precheck; split <;> rfl
@[simp] theorem State.precheck_head (s : State) (now : Nat) : (s.precheck now).head = s.head := by
  unfold State.precheck; split <;> rfl
@[simp] theorem State.precheck_tail (s : State) (now : Nat) : (s.precheck now).tail = s.tail := by
  unfold State.precheck; split <;> rfl
@[simp] theorem State.precheck_buf (s : State) (now : Nat) : (s.precheck now).buf = s.buf := by
  unfold State.precheck; split <;> rfl
@[simp] theorem State.precheck_ext (s : State) (now : Nat) : (s.precheck now).ext = s.ext := by
  unfold State.precheck; split <;> rfl
@[simp] theorem State.precheck_brk (s : State) (now : Nat) : (s.precheck now).brk = s.brk := by
  unfold State.precheck; split <;> rfl
@[simp] theorem State.precheck_results (s : State) (now : Nat) : (s.precheck now).results = s.results := by
  unfold State.precheck; split <;> rfl
@[simp] theorem State.precheck_prog (s : State) (now : Nat) : (s.precheck now).prog = s.prog := by
  unfold State.precheck; split <;> rfl
@[simp] theorem State.precheck_env (s : State) (now : Nat) : (s.precheck now).env = s.env := by
  unfold State.precheck; split <;> rfl
@[simp] theorem State.precheck_tLast (s : State) (now : Nat) : (s.precheck now).tLast = now % s.cfg.period := by
  unfold State.precheck; split <;> rfl
@[simp] theorem State.precheck_st (s : State) (now : Nat) :
    (s.precheck now).st = if s.timedOut now then .idle else s.st := by
  unfold State.precheck; split <;> rfl

end Sys2Proof.Machine
end

