-- ==== Sys2Proof/Laws/Ring.lean ====
section
/-! SUPPORT. The index arithmetic and everything a push, a pop and a slot access can do. -/

namespace Sys2Proof.Machine

open Sys2Proof

theorem C_pos (c : Config) : 0 < c.C := Nat.two_pow_pos _

theorem period_pos (c : Config) : 0 < c.period := Nat.two_pow_pos _

/-- The modular difference of two numbers in range. -/
theorem modSub_eq (a b n : Nat) (ha : a < n) (hb : b < n) : modSub a b n = if b ≤ a then a - b else a + n - b := by
  unfold modSub
  split
  · next h =>
    rw [Int.emod_eq_of_lt (by omega) (by omega)]; omega
  · next h =>
    rw [← Int.add_emod_right, Int.emod_eq_of_lt (by omega) (by omega)]; omega

theorem modSub_lt (a b n : Nat) (hn : 0 < n) : modSub a b n < n := by
  unfold modSub
  have h1 := Int.emod_nonneg ((a : Int) - b) (b := (n : Int)) (by omega)
  have h2 := Int.emod_lt_of_pos ((a : Int) - b) (b := (n : Int)) (by omega)
  omega

@[simp] theorem modSub_self (a n : Nat) : modSub a a n = 0 := by simp [modSub]

/-- An index moves by one and wraps at C. -/
theorem State.nextIndex_eq (s : State) (i : Nat) (h : i < s.cfg.C) :
    s.nextIndex i = if i + 1 = s.cfg.C then 0 else i + 1 := by
  unfold State.nextIndex
  split
  · next h => rw [h, Nat.mod_self]
  · exact Nat.mod_eq_of_lt (by omega)

theorem State.nextIndex_lt (s : State) (i : Nat) : s.nextIndex i < s.cfg.C := Nat.mod_lt _ (C_pos s.cfg)

/-- Everything a push can do, on a slot address that exists. -/
theorem State.push_cases (s : State) (b : Byte) (h : s.head < s.cfg.C) :
    (s.isFull = true ∧ s.push b = .ok s) ∨
    (s.isFull = false ∧ s.push b = .ok { s with buf := memWrite s.buf s.head b, head := s.nextIndex s.head }) := by
  unfold State.push State.bufWrite
  cases hf : s.isFull
  · right; simp [h]
  · left; simp

/-- Everything a push can answer. -/
theorem State.push_ok (s s' : State) (b : Byte) (h : s.push b = .ok s') :
    (s.isFull = true ∧ s' = s) ∨ (s.isFull = false ∧ s.head < s.cfg.C ∧
      s' = { s with buf := memWrite s.buf s.head b, head := s.nextIndex s.head }) := by
  unfold State.push State.bufWrite at h
  cases hf : s.isFull <;> simp only [hf] at h
  · by_cases hc : s.head < s.cfg.C
    · right; simp only [hc, if_true] at h
      simp only [Bool.false_eq_true, if_false, Except.ok.injEq] at h
      exact ⟨rfl, hc, h.symm⟩
    · simp [hc] at h
  · left; simp at h; exact ⟨rfl, h.symm⟩

/-- Everything a pop can answer. -/
theorem State.pop_ok (s s' : State) (b : Byte) (h : s.pop = .ok (b, s')) :
    s.head ≠ s.tail ∧ s.tail < s.cfg.C ∧ memRead s.buf s.tail = some b ∧
      s' = { s with tail := s.nextIndex s.tail } := by
  unfold State.pop State.isEmpty State.bufRead at h
  by_cases he : s.head = s.tail
  · simp [he] at h
  · by_cases hc : s.tail < s.cfg.C
    · cases hm : memRead s.buf s.tail with
      | none => simp [he, hc, hm] at h
      | some v =>
        simp only [beq_iff_eq, he, if_false, hc, if_true, hm, Except.ok.injEq, Prod.mk.injEq] at h
        exact ⟨he, hc, by rw [h.1], h.2.symm⟩
    · simp [he, hc] at h

/-- A pop of a queued byte. -/
theorem State.pop_eq (s : State) (b : Byte) (he : s.head ≠ s.tail) (hc : s.tail < s.cfg.C)
    (hm : memRead s.buf s.tail = some b) : s.pop = .ok (b, { s with tail := s.nextIndex s.tail }) := by
  simp [State.pop, State.isEmpty, State.bufRead, he, hc, hm]

/-- A pop of the empty buffer. -/
theorem State.pop_empty (s : State) (he : s.head = s.tail) : s.pop = .error .popEmpty := by
  simp [State.pop, State.isEmpty, he]

/-- The occupancy of indices in range. -/
theorem State.count_eq (s : State) (hh : s.head < s.cfg.C) (ht : s.tail < s.cfg.C) :
    s.count = if s.tail ≤ s.head then s.head - s.tail else s.head + s.cfg.C - s.tail :=
  modSub_eq _ _ _ hh ht

theorem State.count_lt (s : State) : s.count < s.cfg.C := modSub_lt _ _ _ (C_pos s.cfg)

end Sys2Proof.Machine
end

