-- ==== Sys2Proof/Laws/Decoder.lean ====
section
/-! SUPPORT. Everything an EDGE step can do. -/

namespace Sys2Proof.Machine

open Sys2Proof

/-- What the state case of an edge answers. -/
theorem edgeCase_next (d : Bool) (s t : State) (h : edgeCase d s = .next t) :
    (s.st = .idle ∧ d = true ∧ t = s) ∨ (s.st = .idle ∧ d = false ∧ t = s.startFrame) ∨
    (s.st = .data ∧ t = s.shiftIn d) ∨ (s.st = .parity ∧ d = s.par ∧ t = s.toStop) ∨
    (s.st = .parity ∧ d ≠ s.par ∧ t = s.resync) ∨ (s.st = .stop ∧ d = false ∧ t = s.resync) ∨
    (s.st = .stop ∧ d = true ∧ ∃ u, s.push s.acc = .ok u ∧ t = u.resync) := by
  unfold edgeCase at h
  cases hs : s.st <;> simp only [hs] at h
  · cases d <;> simp_all
  · simp_all
  · by_cases hp : d = s.par <;> simp_all
  · cases d
    · simp_all
    · simp only [State.deliver, if_true] at h
      cases hp : s.push s.acc with
      | error f => simp [hp, outcomeOf] at h
      | ok u => simp [hp, outcomeOf] at h; simp [h]

/-- On a slot address that exists the state case always answers a next state. -/
theorem edgeCase_completes (d : Bool) (s : State) (h : s.head < s.cfg.C) : ∃ t, edgeCase d s = .next t := by
  unfold edgeCase
  cases hs : s.st <;> simp only
  · cases d <;> simp
  · simp
  · split <;> simp
  · cases d
    · simp
    · rcases s.push_cases s.acc h with ⟨_, hp⟩ | ⟨_, hp⟩ <;> simp [State.deliver, hp, outcomeOf]

/-- A delivered edge is its state case after the pre-check. -/
theorem execEdge_delivered (d : Bool) (now : Nat) (s : State) (h : s.en = true) :
    execEdge d now s = edgeCase d (s.precheck now) := by
  simp [execEdge, h]

/-- An edge before INIT changes nothing. -/
theorem execEdge_gated (d : Bool) (now : Nat) (s : State) (h : s.en = false) : execEdge d now s = .next s := by
  simp [execEdge, h]

end Sys2Proof.Machine
end

