-- ==== Sys2Proof/Laws/PerInstr.lean ====
section
/-! SUPPORT. Statements about every instruction as syntax, one lemma per constructor: an encoding holds at least one
byte, so that a step that fetches moves on. -/

namespace Sys2Proof.Laws.Nonempty

open Sys2Proof

def Statement (i : Instr) : Prop := encode i ≠ []

theorem init : Statement (.init) := by simp [Statement, encode]
theorem edge (d : Bool) (now : Nat) : Statement (.edge d now) := by simp [Statement, encode]
theorem available : Statement (.available) := by simp [Statement, encode]
theorem readByte : Statement (.readByte) := by simp [Statement, encode]
theorem nextChar : Statement (.nextChar) := by simp [Statement, encode]
theorem xltStep : Statement (.xltStep) := by simp [Statement, encode]
theorem rbPush (b : Byte) : Statement (.rbPush b) := by simp [Statement, encode]
theorem rbPop : Statement (.rbPop) := by simp [Statement, encode]
theorem rbCount : Statement (.rbCount) := by simp [Statement, encode]
theorem reset : Statement (.reset) := by simp [Statement, encode]
theorem edgeIdleStart : Statement (.edgeIdleStart) := by simp [Statement, encode]
theorem edgeIdleIgnore : Statement (.edgeIdleIgnore) := by simp [Statement, encode]
theorem edgeData (d : Bool) : Statement (.edgeData d) := by simp [Statement, encode]
theorem edgeParityOk (d : Bool) : Statement (.edgeParityOk d) := by simp [Statement, encode]
theorem edgeParityFail (d : Bool) : Statement (.edgeParityFail d) := by simp [Statement, encode]
theorem edgeStopBad : Statement (.edgeStopBad) := by simp [Statement, encode]
theorem edgeStopOk : Statement (.edgeStopOk) := by simp [Statement, encode]
theorem frame (b : Byte) (p : Bool) (t dt : Nat) : Statement (.frame b p t dt) := by simp [Statement, encode]
theorem scanPrefixExt : Statement (.scanPrefixExt) := by simp [Statement, encode]
theorem scanPrefixBrk : Statement (.scanPrefixBrk) := by simp [Statement, encode]
theorem scanCodeRelease (c : Byte) : Statement (.scanCodeRelease c) := by simp [Statement, encode]
theorem scanCodeExt (c : Byte) : Statement (.scanCodeExt c) := by simp [Statement, encode]
theorem scanCodeNormal (c : Byte) : Statement (.scanCodeNormal c) := by simp [Statement, encode]

end Sys2Proof.Laws.Nonempty
end

