-- ==== Sys2Proof/Laws/Translator.lean ====
section
/-! SUPPORT. Everything one iteration of the translator can do. -/

namespace Sys2Proof.Machine

open Sys2Proof

/-- What an iteration answers: Done with the sentinel on the empty buffer, else a pop and the handling of its byte. -/
theorem State.xltStep_ok (s s' : State) (r : XltResult) (h : s.xltStep = .ok (r, s')) :
    (s.count = 0 ∧ r = .done 0#8 ∧ s' = s) ∨
    (s.count ≠ 0 ∧ ∃ b s1, s.pop = .ok (b, s1) ∧ handleByte b s1 = (r, s')) := by
  unfold State.xltStep at h
  split at h
  · next hc => left; simp at h; exact ⟨hc, h.1.symm, h.2.symm⟩
  · next hc =>
    right
    split at h
    · cases h
    · next b s1 hp => exact ⟨hc, b, s1, hp, by simpa using h⟩

/-- The handling of a popped byte writes the two flags only. -/
theorem handleByte_frame (b : Byte) (s : State) :
    (handleByte b s).2 = { s with ext := (handleByte b s).2.ext, brk := (handleByte b s).2.brk } := by
  unfold handleByte
  split
  · rfl
  · split
    · rfl
    · split
      · rfl
      · split <;> rfl

end Sys2Proof.Machine
end

