-- ==== Sys2Proof/Tests/Slice0.lean ====
section
/-! SUPPORT. Checks of the model: well-formedness, decoding of words written out from the spec's encodings, one step of
each instruction against 95_test_vectors.md and the examples of the rules, and a witness for each statement that has
hypotheses. No expected value comes from the model. -/

namespace Sys2Proof.Tests

open Sys2Proof Sys2Proof.Machine

/-! ## Helpers -/

/-- The build of 95_test_vectors.md with its tables T. -/
def cfgT : Config where
  iw := 4
  timeoutUs := 2000
  edgePol := .falling
  tw := 32
  lutN := [(0x12, 0x81#8), (0x1C, 0x61#8), (0x5A, 0x0D#8)]
  lutE := [(0x75, 0x80#8)]
  breakClearsExt := false

/-- `RESET ; INIT` in that build. -/
def on : State := { State.reset with cfg := cfgT, en := true }

/-- `RESET` in that build. -/
def off : State := { State.reset with cfg := cfgT }

/-- The decoder at a point inside a frame. -/
def at_ (st : St) (acc : Byte) (idx : BitVec 4) (par : Bool) (tLast : Nat) : State :=
  { on with st := st, acc := acc, idx := idx, par := par, tLast := tLast }

/-- Slots from address `a` on. -/
def cells : Nat → List Byte → Memory
  | _, [] => []
  | a, b :: bs => (a, b) :: cells (a + 1) bs

/-- The bytes queued from slot 0 on. -/
def queued (bs : List Byte) : State := { on with buf := cells 0 bs, head := bs.length }

/-- A ring of capacity 4 (95_test_vectors.md L2.3). -/
def ring (head tail : Nat) (bs : List Byte) : State :=
  { on with cfg := { cfgT with iw := 2 }, buf := cells 0 bs, head := head, tail := tail }

/-- The next state. -/
def after : Out → Option State
  | .next s => some s
  | .fault _ => none
  | .refused _ => none

/-- The reason of a stop. -/
def stop : Out → Option (Fault ⊕ Refusal)
  | .next _ => none
  | .fault f => some (.inl f)
  | .refused r => some (.inr r)

/-- The decoder's registers and `head`. -/
def regs (o : Out) : Option (St × Byte × BitVec 4 × Bool × Nat × Nat) :=
  (after o).map fun s => (s.st, s.acc, s.idx, s.par, s.tLast, s.head)

/-- The value returned last, the flags and the occupancy. -/
def seen (o : Out) : Option (Option Ret × Bool × Bool × Nat) :=
  (after o).map fun s => (s.results.head?, s.ext, s.brk, s.count)

/-- The instruction some bytes decode to, if all of them are used. -/
def whole (bs : List Byte) : Option Instr :=
  match decode bs with
  | .ok (i, []) => some i
  | .ok (_, _ :: _) => none
  | .error _ => none

/-- Why some bytes are refused. -/
def rejected (bs : List Byte) : Option DecodeError :=
  match decode bs with
  | .ok _ => none
  | .error e => some e

/-! ## Well-formedness: an ill-formed term for each check -/

theorem test_wf_refuses_prefix_as_code :
    (Instr.scanCodeRelease 0xE0#8).wf = false ∧ (Instr.scanCodeExt 0xF0#8).wf = false ∧
    (Instr.scanCodeNormal 0xE0#8).wf = false ∧ (Instr.scanCodeNormal 0xE1#8).wf = true := by decide

theorem test_wf_refuses_long_time :
    (Instr.edge true (256 ^ 255)).wf = false ∧ (Instr.frame 0#8 true (256 ^ 255) 80).wf = false ∧
    (Instr.frame 0#8 true 0 (256 ^ 255)).wf = false ∧ (Instr.edge true (256 ^ 255 - 1)).wf = true := by decide

/-! ## Decoding: words written out from 30_encoding.md R61, R67, R72 -/

/-- The operation codes, in the low four bits as the opcode table numbers them. -/
theorem test_decode_operations :
    decodeTableWord 8 0b0000 = some .init ∧ decodeTableWord 8 0b0001 = some (.edge false 0) ∧
    decodeTableWord 8 0b0010 = some .available ∧ decodeTableWord 8 0b0011 = some .readByte ∧
    decodeTableWord 8 0b0100 = some .nextChar ∧ decodeTableWord 8 0b0101 = some .xltStep ∧
    decodeTableWord 8 0b0110 = some (.rbPush 0#8) ∧ decodeTableWord 8 0b0111 = some .rbPop ∧
    decodeTableWord 8 0b1000 = some .rbCount ∧ decodeTableWord 8 0b1111 = some .reset := by decide

/-- EDGE with d = 1 at 3001 = 0x0BB9, RB_PUSH of 0x5A. -/
theorem test_decode_operands :
    whole [0x1#8, 1#8, 2#8, 0xB9#8, 0x0B#8] = some (.edge true 3001) ∧
    whole [0x6#8, 0x5A#8] = some (.rbPush 0x5A#8) := by decide

/-- The dispatch patterns `ssd`, behind the format's 1; the second row of pattern 10d has bit 3. -/
theorem test_decode_dispatch :
    whole [0b10000#8] = some .edgeIdleStart ∧ whole [0b10001#8] = some .edgeIdleIgnore ∧
    whole [0b10010#8] = some (.edgeData false) ∧ whole [0b10011#8] = some (.edgeData true) ∧
    whole [0b10100#8] = some (.edgeParityOk false) ∧ whole [0b10101#8] = some (.edgeParityOk true) ∧
    whole [0b11100#8] = some (.edgeParityFail false) ∧ whole [0b11101#8] = some (.edgeParityFail true) ∧
    whole [0b10110#8] = some .edgeStopBad ∧ whole [0b10111#8] = some .edgeStopOk := by decide

/-- The wire of 0x1C, 0x5A, 0xFF and 0x80 from the frame table of 95_test_vectors.md, edge 0 in bit 0. -/
theorem test_decode_frame :
    whole [0x20#8, 0b00111000#8, 0b100#8, 0#8, 1#8, 80#8] = some (.frame 0x1C#8 false 0 80) ∧
    whole [0x20#8, 0b10110100#8, 0b110#8, 2#8, 0x11#8, 0x09#8, 1#8, 80#8] = some (.frame 0x5A#8 true 2321 80) ∧
    whole [0x20#8, 0b11111110#8, 0b111#8, 0#8, 0#8] = some (.frame 0xFF#8 true 0 0) ∧
    whole [0x20#8, 0b00000000#8, 0b101#8, 0#8, 0#8] = some (.frame 0x80#8 false 0 0) := by decide

/-- The table's pattern of FRAME, leftmost level first in time: the wire of 0x1C and of 0x5A. -/
theorem test_decode_frame_pattern :
    decodeTableWord 16 0b00011100001 = some (.frame 0x1C#8 false 0 0) ∧
    decodeTableWord 16 0b00101101011 = some (.frame 0x5A#8 true 0 0) ∧
    decodeTableWord 16 0b10011100001 = none := by decide

/-- START = 1 and STOP = 0 are no FRAME. -/
theorem test_decode_refuses_bad_frame :
    rejected [0x20#8, 0b00111001#8, 0b100#8, 0#8, 0#8] = some .notAFrame ∧
    rejected [0x20#8, 0b00111000#8, 0b000#8, 0#8, 0#8] = some .notAFrame := by decide

theorem test_decode_scan_bytes :
    decodeTableWord 8 0b11100000 = some .scanPrefixExt ∧ decodeTableWord 8 0b11110000 = some .scanPrefixBrk ∧
    whole [0x30#8, 0x1C#8] = some (.scanCodeRelease 0x1C#8) ∧ whole [0x31#8, 0x75#8] = some (.scanCodeExt 0x75#8) ∧
    whole [0x32#8, 0xE1#8] = some (.scanCodeNormal 0xE1#8) ∧
    rejected [0x32#8, 0xF0#8] = some (.notACode 0xF0#8) := by decide

theorem test_decode_refuses :
    rejected [] = some .empty ∧ rejected [0x9#8] = some (.unusedOperation 0x9#8) ∧
    rejected [0xE#8] = some (.unusedOperation 0xE#8) ∧ rejected [0x18#8] = some (.unknownFormat 0x18#8) ∧
    rejected [0x40#8] = some (.unknownFormat 0x40#8) ∧ rejected [0x1#8, 2#8, 0#8] = some (.notALevel 2#8) ∧
    rejected [0x6#8] = some .truncated ∧ rejected [0x1#8, 0#8, 2#8, 7#8] = some .truncated := by decide

/-- Each of the table's rows with fixed bits runs as the first instruction after reset, but READ_BYTE and RB_POP, which
fault there (vector O3). -/
theorem test_first_step_after_reset :
    ([0x0, 0x1, 0x2, 0x4, 0x5, 0x6, 0x8, 0xF, 0xE0, 0xF0].map
      fun w => (after (step (State.reset.withFetchWord 8 w))).map (·.prog)) = List.replicate 10 (some []) ∧
    ([0x3, 0x7].map fun w => stop (step (State.reset.withFetchWord 8 w))) =
      List.replicate 2 (some (.inl .popEmpty)) ∧
    (after (step (State.reset.withFetchWord 16 0b00011100001))).map (·.prog) = some [] := by decide

/-! ## One step of each instruction -/

/-- L2.6: INIT from reset changes only `en`. O6: a second INIT is refused. -/
theorem test_init : after (exec .init off) = some { off with en := true } ∧
    stop (exec .init on) = some (.inr .reinit) := by decide

/-- F1 edge 0, and F12: no effect before INIT. -/
theorem test_edge_start : regs (exec (.edge false 0) on) = some (.data, 0#8, 0#4, true, 0, 0) ∧
    after (exec (.edge false 0) off) = some off := by decide

/-- F10 and F13: a gap of 2000 continues the frame, one of 2001 does not, in Data and in Stop. -/
theorem test_edge_timeout :
    regs (exec (.edge false 2320) (at_ .data 0x0C#8 4#4 true 320)) = some (.data, 0x0C#8, 5#4, true, 2320, 0) ∧
    regs (exec (.edge false 2321) (at_ .data 0x0C#8 4#4 true 320)) = some (.data, 0#8, 0#4, true, 2321, 0) ∧
    regs (exec (.edge true 2721) (at_ .stop 0x1C#8 8#4 false 720)) = some (.idle, 0x1C#8, 8#4, false, 2721, 0) :=
  ⟨by decide, by decide, by decide⟩

/-- T1 to T12: the delta and the test. -/
theorem test_delta :
    ({ on with tLast := 1000 } : State).delta 1080 = 80 ∧
    ({ on with tLast := 320 } : State).timedOut 2320 = false ∧ ({ on with tLast := 320 } : State).timedOut 2321 = true ∧
    ({ on with tLast := 0xFFFFFF00 } : State).delta 0x50 = 336 ∧
    ({ on with cfg := { cfgT with tw := 16 }, tLast := 65480 } : State).delta 24 = 80 ∧
    ({ on with cfg := { cfgT with tw := 16 }, tLast := 320 } : State).delta 65956 = 100 ∧
    on.delta 4000000000 = 4000000000 ∧ ({ on with tLast := 500 } : State).delta 400 = 4294967196 := by decide

/-- O1 and B6: empty, and a full ring whose `head` is behind its `tail`. -/
theorem test_available :
    seen (exec .available off) = some (some (.available false), false, false, 0) ∧
    seen (exec .available (ring 0 1 [1#8, 2#8, 3#8, 5#8])) = some (some (.available true), false, false, 3) := by decide

/-- The example of R148, and O3. -/
theorem test_read_byte :
    seen (exec .readByte (queued [0xE0#8, 0x75#8])) = some (some (.byte 0xE0#8), false, false, 1) ∧
    stop (exec .readByte off) = some (.inl .popEmpty) := by decide

/-- X2 in one iteration, X5's first iteration: the prefix is kept, and the call goes on. -/
theorem test_next_char :
    seen (exec .nextChar (queued [0x1C#8])) = some (some (.char 0x61#8), false, false, 0) ∧
    seen (exec .nextChar (queued [0xE0#8])) = some (none, true, false, 0) ∧
    (after (exec .nextChar (queued [0xE0#8]))).map (·.prog) = some [0x4#8] ∧
    seen (exec .nextChar (queued [])) = some (some (.char 0#8), false, false, 0) := by decide

/-- X20, X21, X10: a pending break suppresses a code and outlives a prefix. -/
theorem test_xlt_step :
    seen (exec .xltStep { queued [0x1C#8] with brk := true }) = some (some .continues, false, false, 0) ∧
    seen (exec .xltStep { queued [0xF0#8, 0x1C#8] with brk := true }) = some (some .continues, false, true, 1) ∧
    seen (exec .xltStep { queued [0xE0#8, 0x75#8] with brk := true }) = some (some .continues, true, true, 1) := by decide

/-- X19, X15, X14: the extended table clears `ext`, mapped or not; an unmapped normal code gives Continue. -/
theorem test_xlt_step_lookup :
    seen (exec .xltStep { queued [0x75#8] with ext := true }) = some (some (.done 0x80#8), false, false, 0) ∧
    seen (exec .xltStep { queued [0x99#8, 0x1C#8] with ext := true }) = some (some .continues, false, false, 1) ∧
    seen (exec .xltStep (queued [0x99#8, 0x1C#8])) = some (some .continues, false, false, 1) := by decide

/-- B6: the last slot is written and `head` wraps. B4: a push on a full ring changes nothing. -/
theorem test_rb_push :
    after (exec (.rbPush 5#8) (ring 3 1 [1#8, 2#8, 3#8])) = some (ring 0 1 [1#8, 2#8, 3#8, 5#8]) ∧
    after (exec (.rbPush 4#8) (ring 3 0 [1#8, 2#8, 3#8])) = some (ring 3 0 [1#8, 2#8, 3#8]) := by decide

/-- B10: `tail` wraps, the slot keeps its byte. B11: the fault. -/
theorem test_rb_pop :
    after (exec .rbPop (ring 0 3 [1#8, 2#8, 3#8, 5#8])) =
      some { ring 0 0 [1#8, 2#8, 3#8, 5#8] with results := [.popped 5#8] } ∧
    stop (exec .rbPop (ring 0 0 [1#8, 2#8, 3#8, 5#8])) = some (.inl .popEmpty) := by decide

/-- The examples of R110. -/
theorem test_rb_count :
    (after (exec .rbCount { on with head := 2, tail := 14 })).map (·.results) = some [.count 4] ∧
    (after (exec .rbCount { on with head := 5, tail := 3 })).map (·.results) = some [.count 2] := by decide

/-- L2.6. -/
theorem test_reset :
    after (exec .reset { at_ .stop 0x1C#8 8#4 false 720 with ext := true, brk := true, head := 1, buf := [(0, 1#8)] }) =
      some off := by decide

/-- The examples of R93 and R94. -/
theorem test_edge_idle :
    regs (exec .edgeIdleStart (at_ .idle 0x1C#8 8#4 false 0)) = some (.data, 0#8, 0#4, true, 0, 0) ∧
    after (exec .edgeIdleIgnore (at_ .idle 0x1C#8 8#4 false 500)) = some (at_ .idle 0x1C#8 8#4 false 500) := by decide

/-- The examples of R95 and R96. -/
theorem test_edge_data :
    regs (exec (.edgeData true) (at_ .data 0x04#8 3#4 false 0)) = some (.data, 0x0C#8, 4#4, true, 0, 0) ∧
    regs (exec (.edgeData false) (at_ .data 0x1C#8 7#4 false 0)) = some (.parity, 0x1C#8, 8#4, false, 0, 0) :=
  ⟨by decide, by decide⟩

/-- The examples of R97 and R98. -/
theorem test_edge_parity :
    regs (exec (.edgeParityOk false) (at_ .parity 0x1C#8 8#4 false 0)) = some (.stop, 0x1C#8, 8#4, false, 0, 0) ∧
    regs (exec (.edgeParityFail true) (at_ .parity 0x1C#8 8#4 false 0)) = some (.idle, 0x1C#8, 8#4, false, 0, 0) ∧
    stop (exec (.edgeParityOk true) (at_ .parity 0x1C#8 8#4 false 0)) = some (.inr .rowNotSelected) :=
  ⟨by decide, by decide, by decide⟩

/-- The examples of R99 and R100. -/
theorem test_edge_stop :
    (after (exec .edgeStopOk (at_ .stop 0x1C#8 8#4 false 0))).map (fun s => (s.st, s.head, s.buf)) =
      some (.idle, 1, [(0, 0x1C#8)]) ∧
    after (exec .edgeStopBad (at_ .stop 0x1C#8 8#4 false 0)) = some (at_ .idle 0x1C#8 8#4 false 0) := by decide

/-- F1 and F3. -/
theorem test_frame :
    regs (exec (.frame 0x1C#8 false 0 80) on) = some (.idle, 0x1C#8, 8#4, false, 800, 1) ∧
    (after (exec (.frame 0x1C#8 false 0 80) on)).map (·.buf) = some [(0, 0x1C#8)] ∧
    regs (exec (.frame 0x1C#8 true 0 80) on) = some (.idle, 0x1C#8, 8#4, false, 800, 0) ∧
    (after (exec (.frame 0x1C#8 true 0 80) on)).map (·.buf) = some [] :=
  ⟨by decide, by decide, by decide, by decide⟩

/-- P6: the counter wraps inside the frame. F10 (a): the frame is swallowed by the broken one. -/
theorem test_frame_wrap :
    regs (exec (.frame 0x1C#8 false 65000 80) { on with cfg := { cfgT with tw := 16 } }) =
      some (.idle, 0x1C#8, 8#4, false, 264, 1) ∧
    regs (exec (.frame 0x5A#8 true 2320 80) (at_ .data 0x0C#8 4#4 true 320)) =
      some (.data, 0x0D#8, 4#4, false, 3120, 0) :=
  ⟨by decide, by decide⟩

/-- R68: `E0` and `F0` alone. -/
theorem test_scan_prefix :
    seen (exec .scanPrefixExt on) = some (some .continues, true, false, 0) ∧
    seen (exec .scanPrefixBrk on) = some (some .continues, false, true, 0) := by decide

/-- X8: both values of the build parameter; a release needs `brk`. -/
theorem test_scan_release :
    seen (exec (.scanCodeRelease 0x75#8) { on with ext := true, brk := true }) =
      some (some .continues, true, false, 0) ∧
    seen (exec (.scanCodeRelease 0x75#8)
      { on with cfg := { cfgT with breakClearsExt := true }, ext := true, brk := true }) =
      some (some .continues, false, false, 0) ∧
    stop (exec (.scanCodeRelease 0x75#8) on) = some (.inr .rowNotSelected) := by decide

/-- X4's second byte, and R69: an unmapped extended code. -/
theorem test_scan_ext :
    seen (exec (.scanCodeExt 0x75#8) { on with ext := true }) = some (some (.done 0x80#8), false, false, 0) ∧
    seen (exec (.scanCodeExt 0x1C#8) { on with ext := true }) = some (some .continues, false, false, 0) := by decide

/-- X17's first byte, and X18: `E1` is an ordinary unmapped code. -/
theorem test_scan_normal :
    seen (exec (.scanCodeNormal 0x12#8) on) = some (some (.done 0x81#8), false, false, 0) ∧
    seen (exec (.scanCodeNormal 0xE1#8) on) = some (some .continues, false, false, 0) := by decide

/-- R63: the examples of the parity field. -/
theorem test_parity_bit :
    parityBit 0x00#8 = true ∧ parityBit 0xFF#8 = true ∧ parityBit 0x1C#8 = false ∧ parityBit 0xF0#8 = true ∧
    parityBit 0xE0#8 = false ∧ parityBit 0x75#8 = false := by decide

/-- R60: one event at the falling edge, none at the rising one, and the other way round. -/
theorem test_edge_events :
    edgeEvents .falling true [⟨true, false, 1⟩, ⟨false, false, 2⟩, ⟨false, true, 3⟩, ⟨true, true, 4⟩] = [⟨false, 2⟩] ∧
    edgeEvents .rising true [⟨true, false, 1⟩, ⟨false, false, 2⟩, ⟨false, true, 3⟩, ⟨true, true, 4⟩] = [⟨true, 4⟩] := by
  decide

/-- R11 and R73: what the outside sees of a trace, oldest first; a bare Done counts (notes/assumptions/10.md). -/
theorem test_observed :
    ({ on with results := [.done 0x61#8, .continues, .count 2, .popped 1#8, .byte 0xF0#8, .available true] } :
      State).observed = [.available true, .byte 0xF0#8, .char 0x61#8] := by decide

/-- P5: an edge event that happens between two iterations of a call comes first. -/
theorem test_edge_preempts :
    (after (step { queued [0x1C#8] with prog := [0x4#8], env := [some ⟨false, 0⟩] })).map
      (fun s => (s.st, s.prog, s.env, s.count)) = some (.data, [0x4#8], [], 1) := by decide

/-! ## A witness for each statement that has hypotheses -/

theorem test_w_EncodeThenDecode : (Instr.frame 0x1C#8 false 0 80).wf = true ∧ (Instr.edge true (256 ^ 255 - 1)).wf = true ∧
    (Instr.scanCodeExt 0x75#8).wf = true := by decide

theorem test_w_DecodedInstructionIsWellFormed : decode [0x6#8, 0x5A#8, 0x7#8] = .ok (.rbPush 0x5A#8, [0x7#8]) := rfl

theorem test_w_UnusedOperationCodes : ∃ s t : State, (s.env = [] ∧ s.prog = [9#8]) ∧ t.env = [] ∧ t.prog = [14#8] :=
  ⟨{ on with prog := [9#8] }, { on with prog := [14#8] }, by decide⟩

theorem test_w_StepRunsTheDecodedInstruction : ∃ s t : State,
    (s.env = [] ∧ decode s.prog = .ok (.init, [0x2#8])) ∧ t.env = none :: [none] ∧ decode t.prog = .ok (.rbPop, []) :=
  ⟨{ on with prog := [0#8, 0x2#8] }, { on with prog := [7#8], env := [none, none] }, ⟨rfl, rfl⟩, rfl, rfl⟩

theorem test_w_EdgeEventPreempts : ∃ s t u : State,
    s.env = some ⟨false, 0⟩ :: [] ∧ (t.env = [] ∧ t.prog = []) ∧ u.env = none :: [] ∧ u.prog = [] :=
  ⟨{ on with env := [some ⟨false, 0⟩] }, on, { on with env := [none] }, by decide⟩

theorem test_w_Init : off.en = false ∧ 2 ≤ off.cfg.C ∧ on.en = true := by decide

theorem test_w_BeforeInit : off.en = false ∧ off.head = off.tail := by decide

theorem test_w_EdgeRunsTheSelectedCase : on.en = true ∧ on.head < on.cfg.C ∧ off.en = false ∧
    ({ on with head := 15 } : State).head < on.cfg.C := by decide

theorem test_w_Delta : ∃ s t : State, (s.tLast < s.cfg.period ∧ 1080 < s.cfg.period ∧ s.tLast ≤ 1080) ∧
    (s.tLast < s.cfg.period ∧ 999 < s.cfg.period ∧ 999 < s.tLast) ∧ (1000 < s.cfg.period ∧ 1000 = s.tLast) ∧
    t.cfg.tw = 16 ∧ t.tLast = 65500 :=
  ⟨{ on with tLast := 1000 }, { on with cfg := { cfgT with tw := 16 }, tLast := 65500 }, by decide⟩

theorem test_w_EdgeAfterTimeout : on.en = true ∧ (at_ .data 0x0C#8 4#4 true 320).cfg.timeoutUs <
    (at_ .data 0x0C#8 4#4 true 320).delta 2321 := by decide

theorem test_w_Idle : on.st = .idle ∧ on.en = true := by decide

theorem test_w_Data : ∃ s t : State, (s.FrameInv ∧ s.st = .data) ∧ t.FrameInv ∧ t.st = .data ∧ t.idx = 7#4 :=
  ⟨at_ .data 0x04#8 3#4 false 0, at_ .data 0x1C#8 7#4 false 0, by decide⟩

theorem test_w_Parity : ∃ s : State, s.st = .parity ∧ false = s.par ∧ true ≠ s.par :=
  ⟨at_ .parity 0x1C#8 8#4 false 0, by decide⟩

theorem test_w_Stop : ∃ s : State, s.st = .stop ∧ s.head < s.cfg.C :=
  ⟨at_ .stop 0x1C#8 8#4 false 0, by decide⟩

theorem test_w_UnselectedRows : isCaseRow .edgeStopOk = true ∧ (∀ d, edgeRow d on ≠ .edgeStopOk) ∧
    (∀ b, scanRow b on ≠ .edgeStopOk) := by
  refine ⟨rfl, by decide, ?_⟩
  intro b
  unfold scanRow
  repeat' split
  all_goals exact fun h => nomatch h

/-- The edges of the frame of 0x1C, 80 apart. -/
def wire1C (p q : Bool) : List EdgeEvent :=
  timedEdges (wireLevels 0x1C#8 p q).tail 80 80

theorem inTime_wire1C (p q : Bool) : inTime cfgT 0 (wire1C p q) := by
  simp only [wire1C, wireLevels, List.tail, timedEdges, inTime]
  decide

theorem test_w_ReturnsToIdle : ∃ (s : State) (es : List EdgeEvent), s.Inv ∧ s.en = true ∧ s.st ≠ .idle ∧ s.edgesLeft ≤ es.length :=
  ⟨at_ .data 0x04#8 3#4 false 0, wire1C false true, by decide⟩

theorem test_w_ValidFrame : on.en = true ∧ (on.st = .idle ∨ on.cfg.timeoutUs < on.delta 0) ∧ on.head < on.cfg.C ∧
    ((⟨false, 0⟩ : EdgeEvent) :: wire1C false true).map EdgeEvent.d = wireLevels 0x1C#8 (parityBit 0x1C#8) true ∧
    inTime on.cfg (0 % on.cfg.period) (wire1C false true) :=
  ⟨rfl, .inl rfl, by decide, by decide, inTime_wire1C _ _⟩

theorem test_w_ValidFrame_timeout : ∃ s : State, s.en = true ∧ s.st = .data ∧ s.cfg.timeoutUs < s.delta 0 :=
  ⟨at_ .data 0x04#8 3#4 false 320, by decide⟩

theorem test_w_InvalidFrame : ∀ p q, (p = true ∧ q = true) ∨ (p = false ∧ q = false) ∨ (p = true ∧ q = false) →
    on.en = true ∧ on.st = .idle ∧
    ((⟨false, 0⟩ : EdgeEvent) :: wire1C p q).map EdgeEvent.d = wireLevels 0x1C#8 p q ∧
    (p ≠ parityBit 0x1C#8 ∨ q = false) ∧ inTime on.cfg (0 % on.cfg.period) (wire1C p q) := by
  intro p q h
  refine ⟨rfl, rfl, rfl, ?_, inTime_wire1C _ _⟩
  revert p q; decide

theorem test_w_FrameWord : on.cfg.wf = true ∧ on.en = true ∧ on.st = .idle ∧ on.head < on.cfg.C ∧
    80 ≤ on.cfg.timeoutUs ∧ 2000 ≤ on.cfg.timeoutUs := by decide

theorem test_w_Count : ∃ s t : State, (s.head < s.cfg.C ∧ s.tail < s.cfg.C ∧ s.tail ≤ s.head) ∧
    t.head < t.cfg.C ∧ t.tail < t.cfg.C ∧ t.head < t.tail :=
  ⟨ring 3 3 [], ring 0 3 [], by decide⟩

theorem test_w_EmptyAndFull : ∃ s t : State, (2 ≤ s.cfg.C ∧ s.head < s.cfg.C ∧ s.tail < s.cfg.C ∧ s.isFull = true) ∧
    2 ≤ t.cfg.C ∧ t.head < t.cfg.C ∧ t.tail < t.cfg.C ∧ t.isEmpty = true :=
  ⟨{ on with cfg := { cfgT with iw := 1 }, head := 0, tail := 1 }, ring 3 3 [], by decide⟩

theorem test_w_Push : ∃ s t : State, (s.head + 1) % s.cfg.C = s.tail ∧
    (t.head + 1) % t.cfg.C ≠ t.tail ∧ t.head < t.cfg.C ∧ t.head = t.cfg.C - 1 ∧ t.tail < t.cfg.C :=
  ⟨ring 3 0 [1#8, 2#8, 3#8], ring 3 1 [1#8, 2#8, 3#8], by decide⟩

theorem test_w_Pop : ∃ s : State, s.head ≠ s.tail ∧ s.tail < s.cfg.C ∧ s.tail = s.cfg.C - 1 ∧ s.head < s.cfg.C ∧
    memRead s.buf s.tail = some 5#8 ∧ s.count = 1 :=
  ⟨ring 0 3 [1#8, 2#8, 3#8, 5#8], by decide⟩

theorem test_w_Empty : on.head = on.tail ∧ on.head < on.cfg.C ∧ on.tail < on.cfg.C := by decide

theorem test_w_Fifo : (queued [0x1C#8, 0xF0#8]).Inv ∧ (queued [0x1C#8, 0xF0#8]).isFull = false ∧
    (queued [0x1C#8, 0xF0#8]).isEmpty = false ∧ on.Inv ∧ on.isEmpty = true ∧
    (ring 0 1 [1#8, 2#8, 3#8, 5#8]).Inv :=
  ⟨by decide, by decide, by decide, by decide, by decide, by decide⟩

theorem test_w_ScanRelease : (0x75#8 ≠ 0xE0#8 ∧ 0x75#8 ≠ 0xF0#8) ∧ ({ on with brk := true } : State).brk = true := by decide

theorem test_w_ScanExt : ∃ s : State, 0x75#8 ≠ 0xE0#8 ∧ 0x75#8 ≠ 0xF0#8 ∧ s.brk = false ∧ s.ext = true :=
  ⟨{ on with ext := true }, by decide⟩

theorem test_w_ScanNormal : 0x1C#8 ≠ 0xE0#8 ∧ 0x1C#8 ≠ 0xF0#8 ∧ on.brk = false ∧ on.ext = false := by decide

theorem test_w_XltStep : ∀ b ∈ [0xE0#8, 0xF0#8, 0x1C#8], ∃ s : State, s.head < s.cfg.C ∧ s.tail < s.cfg.C ∧
    s.head ≠ s.tail ∧ memRead s.buf s.tail = some b ∧ s.brk = true := by
  intro b _
  exact ⟨{ queued [b] with brk := true }, (by decide : 1 < 2 ^ 4), (by decide : 0 < 2 ^ 4), (by decide : 1 ≠ 0), rfl, rfl⟩

theorem test_w_NextCharTranslates : ∃ s : State, s.Inv ∧ s.env = [] ∧ s.prog = encode .nextChar ++ [0x2#8] ∧
    s.queue = [0xF0#8, 0x1C#8, 0x1C#8].map some :=
  ⟨{ queued [0xF0#8, 0x1C#8, 0x1C#8] with prog := [0x4#8, 0x2#8] }, by decide⟩

theorem test_w_ExtendedRelease : ∃ s : State, s.Inv ∧ s.ext = false ∧ s.brk = false ∧
    s.queue = some 0xE0#8 :: some 0xF0#8 :: some 0x75#8 :: [some 0x1C#8] :=
  ⟨queued [0xE0#8, 0xF0#8, 0x75#8, 0x1C#8], by decide⟩

theorem test_w_MappedKeys : ∃ s t : State, (s.Inv ∧ tablesMapped s.cfg ∧ s.ext = false ∧ s.brk = false ∧
    s.queue = some 0x1C#8 :: []) ∧ t.Inv ∧ tablesMapped t.cfg ∧ t.ext = false ∧ t.brk = false ∧
    t.queue = some 0xE0#8 :: some 0x75#8 :: [] :=
  ⟨queued [0x1C#8], queued [0xE0#8, 0x75#8], ⟨by decide, by decide, rfl, rfl, by decide⟩, by decide, by decide, rfl, rfl,
    by decide⟩

theorem test_w_PrefixFlags : ∃ t, exec .scanPrefixExt on = .next t ∧ (t.ext ≠ on.ext ∨ t.brk ≠ on.brk) :=
  ⟨_, rfl, by decide⟩

theorem test_w_EveryStep : ∃ t, on.Inv ∧ step { on with prog := [0x6#8, 0x5A#8] } = .next t :=
  ⟨_, by decide, rfl⟩

theorem test_w_Consumer : (agentOf .readByte = .consumer ∨ agentOf .readByte = .either) ∧ Instr.readByte ≠ .init ∧
    ∃ t, exec .readByte (queued [0x1C#8]) = .next t :=
  ⟨by decide, by decide, _, rfl⟩

theorem test_w_Producer : agentOf (.edge false 0) = .producer ∧ agentOf (.frame 0x1C#8 false 0 80) = .producer ∧ on.Inv := by
  decide

theorem test_w_EnableIsNeverCleared : ∃ t, exec .reset on = .next t ∧ on.en = true ∧ t.en = false :=
  ⟨_, rfl, by decide⟩

theorem test_w_QueueChanges : ∃ t, on.Inv ∧ Instr.rbPush 1#8 ≠ .init ∧ Instr.rbPush 1#8 ≠ .reset ∧
    exec (.rbPush 1#8) on = .next t :=
  ⟨_, by decide, by decide, by decide, rfl⟩

theorem test_w_Alike : Instr.nextChar ≠ .edgeIdleStart ∧ on.alike { on with acc := 0x1C#8, idx := 8#4, tLast := 800 } :=
  ⟨by decide, .inr ⟨rfl, rfl⟩⟩

end Sys2Proof.Tests
end

namespace Sys2Proof.Machine

open Sys2Proof

/-- The delta is a `TW`-bit value, whatever the two times are (40_edge_clock.md R83). -/
theorem State.delta_lt_period (s : State) (now : Nat) : s.delta now < s.cfg.period :=
  modSub_lt _ _ _ (period_pos s.cfg)

/-- The delta of two times in range needs no wrap of the clock, or exactly one. -/
theorem State.delta_eq (s : State) (now : Nat) (hlast : s.tLast < s.cfg.period) (hnow : now < s.cfg.period) :
    s.delta now = if s.tLast ≤ now then now - s.tLast else now + s.cfg.period - s.tLast :=
  modSub_eq _ _ _ hnow hlast

theorem State.delta_eq_sub_of_le (s : State) (now : Nat) (hnow : now < s.cfg.period) (hle : s.tLast ≤ now) :
    s.delta now = now - s.tLast := by
  rw [s.delta_eq now (hle.trans_lt hnow) hnow, if_pos hle]

theorem State.delta_eq_add_period_sub_of_lt (s : State) (now : Nat) (hlast : s.tLast < s.cfg.period)
    (hlt : now < s.tLast) : s.delta now = now + s.cfg.period - s.tLast := by
  rw [s.delta_eq now hlast (hlt.trans hlast), if_neg hlt.not_ge]

@[simp] theorem State.delta_tLast (s : State) : s.delta s.tLast = 0 := modSub_self _ _

/-- Settles O15: the remainder cannot leave the clock's range, two times in range are at most one wrap apart, and the
spec's example is an instance of the wrapped case. -/
theorem deltaIsTheModularDifference : Obligations.DeltaIsTheModularDifference := by
  unfold Obligations.DeltaIsTheModularDifference
  constructor
  · intro s now hlast hnow
    refine ⟨s.delta_lt_period now, s.delta_eq_sub_of_le now hnow, s.delta_eq_add_period_sub_of_lt now hlast, ?_⟩
    rintro rfl
    exact s.delta_tLast
  · intro s htw hlast
    have hperiod : s.cfg.period = 65536 := by simp [Config.period, htw]
    rw [s.delta_eq_add_period_sub_of_lt 44 (by omega) (by omega), hperiod, hlast]

end Sys2Proof.Machine

/-! The frame decoder (41_frame_decoder.md): what the pre-check leaves, the row each edge selects, and a valid frame
followed edge by edge. -/

namespace Sys2Proof.Machine

open Sys2Proof

/-! ## The pre-check and the delivered edge -/

/-- The time stamp and the timeout pre-check (R92) as one update of two registers. -/
theorem State.precheck_eq (s : State) (now : Nat) :
    s.precheck now =
      { s with tLast := now % s.cfg.period, st := if s.timedOut now then .idle else s.st } := by
  unfold State.precheck
  split <;> rfl

theorem State.timedOut_iff (s : State) (now : Nat) :
    s.timedOut now = true ↔ s.cfg.timeoutUs < s.delta now := by
  simp [State.timedOut]

/-- After a gap above the timeout, the old `st` is forgotten (R107). -/
theorem State.precheck_of_timeout (s : State) (now : Nat) (h : s.cfg.timeoutUs < s.delta now) :
    s.precheck now = { s with tLast := now % s.cfg.period, st := .idle } := by
  rw [s.precheck_eq, if_pos ((s.timedOut_iff now).2 h)]

/-- An edge in time is its state case on the stamped state. -/
theorem execEdge_of_delta_le (d : Bool) (now : Nat) (s : State) (hen : s.en = true)
    (h : s.delta now ≤ s.cfg.timeoutUs) :
    execEdge d now s = edgeCase d { s with tLast := now % s.cfg.period } := by
  have hnot : ¬ s.timedOut now = true := by rw [s.timedOut_iff]; exact h.not_gt
  rw [execEdge_delivered d now s hen, s.precheck_eq, if_neg hnot]

/-- In Idle the timeout makes no difference: an edge is its Idle case. -/
theorem execEdge_of_idle_or_timeout (d : Bool) (now : Nat) (s : State) (hen : s.en = true)
    (h : s.st = .idle ∨ s.cfg.timeoutUs < s.delta now) :
    execEdge d now s = .next
      (if d then { s with tLast := now % s.cfg.period, st := .idle }
       else { s with tLast := now % s.cfg.period, st := .data, acc := 0#8, idx := 0#4, par := true }) := by
  have hpre : s.precheck now = { s with tLast := now % s.cfg.period, st := .idle } := by
    rcases h with hidle | hlate
    · rw [s.precheck_eq, hidle, ite_self]
    · exact s.precheck_of_timeout now hlate
  rw [execEdge_delivered d now s hen, hpre]
  cases d <;> rfl

theorem exec_edge (d : Bool) (now : Nat) (s : State) : exec (.edge d now) s = execEdge d now s := rfl

theorem exec_rbPush (b : Byte) (s : State) : exec (.rbPush b) s = outcomeOf (s.push b) := rfl

/-! ## The dispatch rows, each in a state that selects it -/

theorem exec_edgeIdleStart (s : State) (h : s.st = .idle) : exec .edgeIdleStart s = .next s.startFrame :=
  if_pos h

theorem exec_edgeIdleIgnore (s : State) (h : s.st = .idle) : exec .edgeIdleIgnore s = .next s :=
  if_pos h

theorem exec_edgeData (d : Bool) (s : State) (h : s.st = .data) : exec (.edgeData d) s = .next (s.shiftIn d) :=
  if_pos h

theorem exec_edgeParityOk (d : Bool) (s : State) (h : s.st = .parity) (hd : d = s.par) :
    exec (.edgeParityOk d) s = .next s.toStop :=
  if_pos ⟨h, hd⟩

theorem exec_edgeParityFail (d : Bool) (s : State) (h : s.st = .parity) (hd : d ≠ s.par) :
    exec (.edgeParityFail d) s = .next s.resync :=
  if_pos ⟨h, hd⟩

theorem exec_edgeStopBad (s : State) (h : s.st = .stop) : exec .edgeStopBad s = .next s.resync :=
  if_pos h

theorem exec_edgeStopOk (s : State) (h : s.st = .stop) : exec .edgeStopOk s = outcomeOf s.deliver :=
  if_pos h

/-- The state case of an edge is the row that `st`, `d` and `par` select (R90). -/
theorem exec_edgeRow (d : Bool) (s : State) : exec (edgeRow d s) s = edgeCase d s := by
  unfold edgeRow edgeCase
  cases hst : s.st with
  | idle => cases d <;> simp [exec_edgeIdleStart, exec_edgeIdleIgnore, hst]
  | data => exact exec_edgeData d s hst
  | parity =>
    by_cases hd : d = s.par
    · simp only [if_pos hd, exec_edgeParityOk d s hst hd]
    · simp only [if_neg hd, exec_edgeParityFail d s hst hd]
  | stop => cases d <;> simp [exec_edgeStopBad, exec_edgeStopOk, hst]

/-! ## The push of a valid stop bit -/

/-- On a slot address that exists a push answers a next state. -/
theorem State.push_completes (s : State) (b : Byte) (h : s.head < s.cfg.C) : ∃ u, s.push b = .ok u := by
  rcases s.push_cases b h with ⟨-, hpush⟩ | ⟨-, hpush⟩
  · exact ⟨_, hpush⟩
  · exact ⟨_, hpush⟩

/-- The byte is pushed, then the decoder is back in Idle (R99). -/
theorem State.deliver_of_push {s u : State} (h : s.push s.acc = .ok u) : s.deliver = .ok u.resync := by
  simp only [State.deliver, h]

/-! ## One bit of the accumulator -/

/-- The written bit is `d`, the others stay (R95). -/
theorem getLsbD_writeBit (v : Byte) (i : BitVec 4) (d : Bool) (j : Nat) (hj : j < 8) :
    (writeBit v i d).getLsbD j = if j = i.toNat then d else v.getLsbD j := by
  rcases lt_trichotomy j i.toNat with hlt | rfl | hgt
  · cases d <;> simp [writeBit, hj, hlt, hlt.ne]
  · cases d <;> simp [writeBit, hj]
  · have hsub : j - i.toNat ≠ 0 := by omega
    cases d <;> simp [writeBit, hj, hgt.ne', hgt.not_gt, hsub]

/-- Where the bit was 0, writing it is the OR of the shifted bit (R95). -/
theorem writeBit_eq_or (v : Byte) (i : BitVec 4) (d : Bool) (hclear : v.getLsbD i.toNat = false) :
    writeBit v i d = v ||| (BitVec.ofNat 8 d.toNat <<< i.toNat) := by
  have hmask : v &&& ~~~(1#8 <<< i.toNat) = v := by
    apply BitVec.eq_of_getLsbD_eq
    intro j hj
    rcases lt_trichotomy j i.toNat with hlt | rfl | hgt
    · simp [hj, hlt]
    · simp [hclear]
    · have hsub : j - i.toNat ≠ 0 := by omega
      simp [hj, hsub]
  unfold writeBit
  rw [hmask]
  cases d <;> rfl

/-- In Data an index of at most 7 counts up without a wrap (R33, R96). -/
theorem toNat_idx_succ (i : BitVec 4) (h : i.toNat ≤ 7) : (i + 1#4).toNat = i.toNat + 1 := by
  rw [BitVec.toNat_add]
  exact Nat.mod_eq_of_lt (show i.toNat + 1 < 16 by omega)

/-! ## The statements about one edge -/

/-- Settles O13: the gate is closed. -/
theorem edgeBeforeInitChangesNothing : Obligations.EdgeBeforeInitChangesNothing := by
  unfold Obligations.EdgeBeforeInitChangesNothing
  exact fun s d now hen => execEdge_gated d now s hen

/-- Settles O14: the state of the second clause is the one the pre-check leaves, and the selected row is its case. -/
theorem edgeRunsTheSelectedCase : Obligations.EdgeRunsTheSelectedCase := by
  unfold Obligations.EdgeRunsTheSelectedCase
  refine ⟨fun s d now hen => execEdge_gated d now s hen, ?_⟩
  intro s d now hen hhead s1 hs1
  have hpre : s.precheck now = s1 := by
    rw [hs1, s.precheck_eq]
    simp only [s.timedOut_iff]
    rfl
  have hhead1 : s1.head < s1.cfg.C := by rw [hs1]; exact hhead
  obtain ⟨t, ht⟩ := edgeCase_completes d s1 hhead1
  refine ⟨t, ?_, ?_⟩
  · rw [exec_edge, execEdge_delivered d now s hen, hpre, ht]
  · rw [exec_edgeRow, ht]

/-- Settles O16: the pre-check has moved `st` to Idle, so the Idle case runs. -/
theorem edgeAfterTimeoutIsAPossibleStart : Obligations.EdgeAfterTimeoutIsAPossibleStart := by
  unfold Obligations.EdgeAfterTimeoutIsAPossibleStart
  exact fun s d now hen hlate => execEdge_of_idle_or_timeout d now s hen (.inr hlate)

/-- Settles O17. -/
theorem startBitBeginsAFrame : Obligations.StartBitBeginsAFrame := by
  unfold Obligations.StartBitBeginsAFrame
  intro s hidle
  exact ⟨exec_edgeIdleStart s hidle, fun hen now => execEdge_of_idle_or_timeout false now s hen (.inl hidle)⟩

/-- Settles O18. -/
theorem highLevelInIdleIsIgnored : Obligations.HighLevelInIdleIsIgnored := by
  unfold Obligations.HighLevelInIdleIsIgnored
  intro s hidle
  refine ⟨exec_edgeIdleIgnore s hidle, fun hen now => ?_⟩
  rw [exec_edge, execEdge_of_idle_or_timeout true now s hen (.inl hidle), ← hidle]
  rfl

/-- Settles O19: under R33 the index neither wraps nor points at a bit already set. -/
theorem dataEdgeShiftsInOneBit : Obligations.DataEdgeShiftsInOneBit := by
  unfold Obligations.DataEdgeShiftsInOneBit
  rintro s d ⟨hidx, -, hpartial⟩ hdata
  have hle : s.idx.toNat ≤ 7 := hidx hdata
  have hclear : s.acc.getLsbD s.idx.toNat = false :=
    (hpartial (by simp [hdata])).1 _ (by omega) le_rfl
  have hnext := toNat_idx_succ s.idx hle
  have hst : (s.shiftIn d).st = if (s.shiftIn d).idx.toNat = 8 then .parity else .data := by
    rw [s.shiftIn_st, s.shiftIn_idx, hdata]
    simp only [BitVec.toNat_eq, BitVec.toNat_ofNat]
  exact ⟨s.shiftIn d, exec_edgeData d s hdata, getLsbD_writeBit s.acc s.idx d, writeBit_eq_or s.acc s.idx d hclear,
    rfl, hnext, hst, rfl⟩

/-- Settles O20. -/
theorem matchingParityGoesToStop : Obligations.MatchingParityGoesToStop := by
  unfold Obligations.MatchingParityGoesToStop
  exact fun s d hparity hd => exec_edgeParityOk d s hparity hd

/-- Settles O21. -/
theorem parityErrorDiscardsTheByte : Obligations.ParityErrorDiscardsTheByte := by
  unfold Obligations.ParityErrorDiscardsTheByte
  exact fun s d hparity hd => exec_edgeParityFail d s hparity hd

/-- Settles O22: on a slot address that exists the push completes, and the row only adds the return to Idle. -/
theorem validStopBitPushesTheByte : Obligations.ValidStopBitPushesTheByte := by
  unfold Obligations.ValidStopBitPushesTheByte
  intro s hstop hhead
  obtain ⟨u, hu⟩ := s.push_completes s.acc hhead
  refine ⟨u, ?_, ?_⟩
  · rw [exec_rbPush, hu, outcomeOf]
  · rw [exec_edgeStopOk s hstop, State.deliver_of_push hu, outcomeOf]
    rfl

/-- Settles O23. -/
theorem badStopBitDiscardsTheByte : Obligations.BadStopBitDiscardsTheByte := by
  unfold Obligations.BadStopBitDiscardsTheByte
  exact fun s hstop => exec_edgeStopBad s hstop

/-! ## A frame edge by edge -/

/-- The state with the decoder's private registers replaced. -/
def State.withDecoder (s : State) (st : St) (acc : Byte) (idx : BitVec 4) (par : Bool) (tLast : Nat) : State :=
  { s with st := st, acc := acc, idx := idx, par := par, tLast := tLast }

/-- A push neither reads nor writes the decoder's private registers. -/
theorem State.push_withDecoder {s u : State} {b : Byte} (h : s.push b = .ok u)
    (st : St) (acc : Byte) (idx : BitVec 4) (par : Bool) (tLast : Nat) :
    (s.withDecoder st acc idx par tLast).push b = .ok (u.withDecoder st acc idx par tLast) := by
  rcases s.push_ok u b h with ⟨hfull, rfl⟩ | ⟨hfull, hhead, rfl⟩
  · exact if_pos hfull
  · have hnot : (s.withDecoder st acc idx par tLast).isFull = false := hfull
    rcases (s.withDecoder st acc idx par tLast).push_cases b hhead with ⟨hyes, -⟩ | ⟨-, hpush⟩
    · simp [hnot] at hyes
    · exact hpush

/-- The low `k` bits of a byte, the others 0. -/
def lowBits (b : Byte) (k : Nat) : Byte := (b.setWidth k).setWidth 8

theorem getLsbD_lowBits (b : Byte) (k j : Nat) (hj : j < 8) :
    (lowBits b k).getLsbD j = (decide (j < k) && b.getLsbD j) := by
  simp [lowBits, hj]

theorem lowBits_zero (b : Byte) : lowBits b 0 = 0#8 := by
  apply BitVec.eq_of_getLsbD_eq
  intro j hj
  simp [getLsbD_lowBits b 0 j hj]

theorem lowBits_eight (b : Byte) : lowBits b 8 = b := by simp [lowBits]

/-- Data bit `k` on top of the bits below it (R95). -/
theorem writeBit_lowBits (b : Byte) (k : Nat) (hk : k < 8) :
    writeBit (lowBits b k) (BitVec.ofNat 4 k) (b.getLsbD k) = lowBits b (k + 1) := by
  have hidx : (BitVec.ofNat 4 k).toNat = k := by
    rw [BitVec.toNat_ofNat]; exact Nat.mod_eq_of_lt (by omega)
  apply BitVec.eq_of_getLsbD_eq
  intro j hj
  rw [getLsbD_writeBit _ _ _ j hj, hidx, getLsbD_lowBits b k j hj, getLsbD_lowBits b (k + 1) j hj]
  rcases lt_trichotomy j k with hlt | rfl | hgt
  · simp [hlt, hlt.ne, Nat.lt_succ_of_lt hlt]
  · simp
  · simp [hgt.ne', hgt.not_gt, show ¬ j < k + 1 by omega]

/-- The parity accumulator after `n` bits, read from the left as `P(B)` is (R63). -/
theorem runParity_eq_foldl (b : Byte) (n : Nat) :
    runParity b n = (List.range n).foldl (fun p i => p ^^ b.getLsbD i) true := by
  induction n with
  | zero => rfl
  | succ n ih => rw [List.range_succ, List.foldl_append, ← ih]; rfl

/-- The parity accumulator over all eight bits is the valid parity bit (R63). -/
theorem runParity_eight (b : Byte) : runParity b 8 = parityBit b := runParity_eq_foldl b 8

/-- The decoder inside a frame of `b`: the start bit and the first `k` data bits have been taken, the last of these
edges at time `last` (R33). -/
def State.received (s : State) (b : Byte) (k last : Nat) : State :=
  s.withDecoder (if k = 8 then .parity else .data) (lowBits b k) (BitVec.ofNat 4 k) (runParity b k) last

section
variable {s : State} (b : Byte) (now : Nat) (hen : s.en = true)
include hen

/-- The start bit (R93). -/
theorem execEdge_startBit (h : s.st = .idle ∨ s.cfg.timeoutUs < s.delta now) :
    execEdge false now s = .next (s.received b 0 (now % s.cfg.period)) := by
  rw [execEdge_of_idle_or_timeout false now s hen h, State.received, lowBits_zero]
  rfl

variable {last : Nat} (hin : modSub now last s.cfg.period ≤ s.cfg.timeoutUs)
include hin

/-- An edge in time moves the time stamp and then is its state case. -/
theorem execEdge_withDecoder (d : Bool) (st : St) (acc : Byte) (idx : BitVec 4) (par : Bool) :
    execEdge d now (s.withDecoder st acc idx par last) =
      edgeCase d (s.withDecoder st acc idx par (now % s.cfg.period)) :=
  execEdge_of_delta_le d now (s.withDecoder st acc idx par last) hen hin

/-- Data bit `k` (R95, R96). -/
theorem execEdge_dataBit {k : Nat} (hk : k < 8) :
    execEdge (b.getLsbD k) now (s.received b k last) = .next (s.received b (k + 1) (now % s.cfg.period)) := by
  have hidx : BitVec.ofNat 4 k + 1#4 = BitVec.ofNat 4 (k + 1) := BitVec.ofNat_add_ofNat k 1
  have hlast : BitVec.ofNat 4 (k + 1) = 8#4 ↔ k + 1 = 8 := by
    rw [BitVec.toNat_eq, BitVec.toNat_ofNat, BitVec.toNat_ofNat]
    omega
  rw [State.received, if_neg hk.ne, execEdge_withDecoder now hen hin]
  simp only [edgeCase, State.shiftIn, State.received, State.withDecoder, writeBit_lowBits b k hk, hidx, hlast,
    parityStep, runParity]

/-- A parity bit (R97, R98). -/
theorem execEdge_parityBit (p : Bool) :
    execEdge p now (s.received b 8 last) =
      .next (if p = parityBit b then (s.received b 8 (now % s.cfg.period)).toStop
        else (s.received b 8 (now % s.cfg.period)).resync) := by
  rw [← runParity_eight b]
  refine (execEdge_withDecoder now hen hin p _ _ _ _).trans ?_
  by_cases hp : p = runParity b 8
  · rw [if_pos hp]; exact if_pos hp
  · rw [if_neg hp]; exact if_neg hp

/-- A valid stop bit (R99). -/
theorem execEdge_stopBit {u : State} (hpush : s.push b = .ok u) :
    execEdge true now (s.received b 8 last).toStop = .next (u.received b 8 (now % s.cfg.period)).resync := by
  refine (execEdge_withDecoder now hen hin true .stop _ _ _).trans ?_
  refine congrArg outcomeOf (State.deliver_of_push (u := u.withDecoder .stop _ _ _ _) ?_)
  rw [← lowBits_eight b] at hpush
  exact State.push_withDecoder hpush _ _ _ _ _

end

/-- Edges are taken one after the other. -/
theorem runEdges_cons {s t : State} {e : EdgeEvent} (h : execEdge e.d e.now s = .next t) (es : List EdgeEvent) :
    runEdges (e :: es) s = runEdges es t := by
  simp only [runEdges, h]

/-- The eight data bits, or the rest of them, whatever follows: the decoder has received the byte. -/
theorem runEdges_dataBits {s : State} (b : Byte) (hen : s.en = true) (ds : List Bool) :
    ∀ (n k last : Nat) (es : List EdgeEvent), k + n = 8 →
      es.map EdgeEvent.d = (List.range' k n).map b.getLsbD ++ ds → inTime s.cfg last es →
      ∃ last', inTime s.cfg last' (es.drop n) ∧
        runEdges es (s.received b k last) = runEdges (es.drop n) (s.received b 8 last') := by
  intro n
  induction n with
  | zero =>
    intro k last es hk _ hin
    exact ⟨last, hin, by rw [← hk]; rfl⟩
  | succ n ih =>
    intro k last es hk hes hin
    obtain ⟨e, es, rfl, hd, hes⟩ := List.map_eq_cons_iff.1 hes
    obtain ⟨hfirst, hrest⟩ := hin
    obtain ⟨last', hin', hrun⟩ := ih (k + 1) (e.now % s.cfg.period) es (by omega) hes hrest
    have hbit := execEdge_dataBit b e.now hen hfirst (show k < 8 by omega)
    rw [← hd] at hbit
    exact ⟨last', hin', (runEdges_cons hbit es).trans hrun⟩

/-- Settles O26: a start bit, eight data bits, the matching parity bit and a valid stop bit, of which only the last
touches the ring. -/
theorem validFrameQueuesItsByte : Obligations.ValidFrameQueuesItsByte := by
  unfold Obligations.ValidFrameQueuesItsByte
  intro s b e es hen hstart hhead hlevels hin
  obtain ⟨u, hu⟩ := s.push_completes b hhead
  obtain ⟨hstartBit, hrest⟩ := List.cons.inj hlevels
  obtain ⟨last, hin', hrun⟩ := runEdges_dataBits b hen [parityBit b, true] 8 0 _ es rfl hrest hin
  have hlast : (es.drop 8).map EdgeEvent.d = [parityBit b, true] := by
    rw [List.map_drop, hrest]
    rfl
  obtain ⟨eParity, fs, hdrop, hp, hfs⟩ := List.map_eq_cons_iff.1 hlast
  obtain ⟨eStop, gs, rfl, hq, hgs⟩ := List.map_eq_cons_iff.1 hfs
  obtain rfl := List.map_eq_nil_iff.1 hgs
  rw [hdrop] at hin' hrun
  obtain ⟨hinParity, hinStop, -⟩ := hin'
  have hstartEdge := execEdge_startBit b e.now hen hstart
  have hparityEdge := execEdge_parityBit b eParity.now hen hinParity (parityBit b)
  have hstopEdge := execEdge_stopBit b eStop.now hen hinStop hu
  rw [← hstartBit] at hstartEdge
  rw [if_pos rfl, ← hp] at hparityEdge
  rw [← hq] at hstopEdge
  refine ⟨(u.received b 8 (eStop.now % s.cfg.period)).resync, u, ?_, rfl, ?_, rfl⟩
  · calc runEdges (e :: es) s
        = runEdges es (s.received b 0 (e.now % s.cfg.period)) := runEdges_cons hstartEdge es
      _ = runEdges [eParity, eStop] (s.received b 8 last) := hrun
      _ = runEdges [eStop] (s.received b 8 (eParity.now % s.cfg.period)).toStop := runEdges_cons hparityEdge [eStop]
      _ = .next (u.received b 8 (eStop.now % s.cfg.period)).resync := runEdges_cons hstopEdge []
  · rw [exec_rbPush, hu, outcomeOf]

end Sys2Proof.Machine

/-! The ring buffer (42_ring_buffer.md): the two derived flags in terms of the occupancy, how a push and a pop move the
occupancy, and where a pop can fault. -/

namespace Sys2Proof.Machine

open Sys2Proof

/-! ## Empty and full as the occupancy sees them (R111) -/

theorem State.isEmpty_iff (s : State) : s.isEmpty = true ↔ s.head = s.tail := beq_iff_eq

theorem State.isFull_iff (s : State) : s.isFull = true ↔ (s.head + 1) % s.cfg.C = s.tail := beq_iff_eq

/-- Equal indices are no byte apart, in range or not. -/
theorem State.count_of_head_eq_tail {s : State} (h : s.head = s.tail) : s.count = 0 := by
  rw [State.count, h, modSub_self]

theorem State.isEmpty_iff_count (s : State) (hh : s.head < s.cfg.C) (ht : s.tail < s.cfg.C) :
    s.isEmpty = true ↔ s.count = 0 := by
  rw [s.isEmpty_iff, s.count_eq hh ht]
  split <;> omega

theorem State.isFull_iff_count (s : State) (hh : s.head < s.cfg.C) (ht : s.tail < s.cfg.C) :
    s.isFull = true ↔ s.count + 1 = s.cfg.C := by
  have hnext : s.isFull = true ↔ s.nextIndex s.head = s.tail := s.isFull_iff
  rw [hnext, s.nextIndex_eq _ hh, s.count_eq hh ht]
  split <;> split <;> omega

/-! ## RB_PUSH and RB_POP on the occupancy (R112, R113) -/

/-- The head moving on, not onto the tail, is one byte more. -/
theorem State.modSub_nextIndex_left (s : State) {a b : Nat} (ha : a < s.cfg.C) (hb : b < s.cfg.C)
    (hne : s.nextIndex a ≠ b) : modSub (s.nextIndex a) b s.cfg.C = modSub a b s.cfg.C + 1 := by
  rw [modSub_eq _ _ _ (s.nextIndex_lt a) hb, modSub_eq _ _ _ ha hb]
  rw [s.nextIndex_eq a ha] at hne ⊢
  split_ifs at hne ⊢ <;> omega

/-- The tail moving on towards the head is one byte less. -/
theorem State.modSub_nextIndex_right (s : State) {a b : Nat} (ha : a < s.cfg.C) (hb : b < s.cfg.C) (hne : a ≠ b) :
    modSub a (s.nextIndex b) s.cfg.C + 1 = modSub a b s.cfg.C := by
  rw [modSub_eq _ _ _ ha (s.nextIndex_lt b), modSub_eq _ _ _ ha hb, s.nextIndex_eq b hb]
  split_ifs <;> omega

/-- A push on a buffer with room writes the slot at `head` and moves `head`. -/
theorem State.push_stores {s t : State} {b : Byte} (h : s.push b = .ok t) (hroom : s.isFull = false) :
    s.head < s.cfg.C ∧ t = { s with buf := memWrite s.buf s.head b, head := s.nextIndex s.head } := by
  obtain ⟨hfull, -⟩ | ⟨-, hstored⟩ := s.push_ok t b h
  · simp [hroom] at hfull
  · exact hstored

/-- A push that is not dropped adds one byte. -/
theorem State.count_push {s t : State} {b : Byte} (h : s.push b = .ok t) (hroom : s.isFull = false)
    (ht : s.tail < s.cfg.C) : t.count = s.count + 1 := by
  obtain ⟨hh, rfl⟩ := State.push_stores h hroom
  exact s.modSub_nextIndex_left hh ht (by simpa [State.isFull] using hroom)

/-- A pop takes one byte. -/
theorem State.count_pop {s t : State} {b : Byte} (h : s.pop = .ok (b, t)) (hh : s.head < s.cfg.C) :
    t.count + 1 = s.count := by
  obtain ⟨hne, ht, -, rfl⟩ := s.pop_ok t b h
  exact s.modSub_nextIndex_right hh ht hne

/-- A push that is not dropped leaves the buffer with a byte. -/
theorem State.isEmpty_push {s t : State} {b : Byte} (h : s.push b = .ok t) (hroom : s.isFull = false) :
    t.isEmpty = false := by
  obtain ⟨-, rfl⟩ := State.push_stores h hroom
  exact hroom

/-- A push that is not dropped fills the buffer exactly when it had one place left. -/
theorem State.isFull_push {s t : State} {b : Byte} (h : s.push b = .ok t) (hroom : s.isFull = false)
    (ht : s.tail < s.cfg.C) : t.isFull = true ↔ s.count + 2 = s.cfg.C := by
  have hcount : t.count = s.count + 1 := State.count_push h hroom ht
  obtain ⟨-, heq⟩ := State.push_stores h hroom
  have hfull : t.isFull = true ↔ t.count + 1 = t.cfg.C := by
    apply State.isFull_iff_count <;> simp [heq, ht, s.nextIndex_lt]
  rw [hfull, hcount, heq]

/-- A pop leaves room for a byte. -/
theorem State.isFull_pop {s t : State} {b : Byte} (h : s.pop = .ok (b, t)) (hh : s.head < s.cfg.C) :
    t.isFull = false := by
  have hcount : t.count + 1 = s.count := State.count_pop h hh
  have hlt : s.count < s.cfg.C := s.count_lt
  obtain ⟨-, -, -, heq⟩ := s.pop_ok t b h
  have hfull : t.isFull = true ↔ t.count + 1 = t.cfg.C := by
    apply State.isFull_iff_count <;> simp [heq, hh, s.nextIndex_lt]
  rw [Bool.eq_false_iff, Ne, hfull, hcount, heq]
  exact hlt.ne

/-- A pop empties the buffer exactly when it held one byte. -/
theorem State.isEmpty_pop {s t : State} {b : Byte} (h : s.pop = .ok (b, t)) (hh : s.head < s.cfg.C) :
    t.isEmpty = true ↔ s.count = 1 := by
  have hcount : t.count + 1 = s.count := State.count_pop h hh
  obtain ⟨-, -, -, heq⟩ := s.pop_ok t b h
  have hempty : t.isEmpty = true ↔ t.count = 0 := by
    apply State.isEmpty_iff_count <;> simp [heq, hh, s.nextIndex_lt]
  rw [hempty, ← hcount]
  omega

/-! ## Where a pop can fault (R114) -/

/-- A slot access has faults of its own only. -/
theorem State.bufRead_ne_popEmpty (s : State) (a : Nat) : s.bufRead a ≠ .error .popEmpty := by
  unfold State.bufRead
  split
  · cases memRead s.buf a <;> simp
  · simp

theorem State.pop_eq_popEmpty_iff (s : State) : s.pop = .error .popEmpty ↔ s.head = s.tail := by
  refine ⟨fun h => ?_, s.pop_empty⟩
  by_contra hne
  unfold State.pop at h
  rw [if_neg (mt s.isEmpty_iff.1 hne)] at h
  cases hread : s.bufRead s.tail with
  | ok b => simp [hread] at h
  | error f =>
    simp only [hread, Except.error.injEq] at h
    exact s.bufRead_ne_popEmpty s.tail (h ▸ hread)

/-- The translator tests the occupancy before it pops (R127 step 1). -/
theorem State.xltStep_ne_popEmpty (s : State) : s.xltStep ≠ .error .popEmpty := by
  intro h
  unfold State.xltStep at h
  split at h
  · cases h
  · next hcount =>
    split at h
    · next f hpop =>
      have hempty : s.head = s.tail := s.pop_eq_popEmpty_iff.1 (hpop.trans (by rw [Except.error.inj h]))
      exact hcount (State.count_of_head_eq_tail hempty)
    · cases h

/-! ## What the operations answer -/

theorem exec_rbCount (s : State) : exec .rbCount s = .next { s with results := .count s.count :: s.results } := rfl

/-- A push on a full buffer is dropped. -/
theorem exec_rbPush_of_isFull {s : State} (b : Byte) (h : s.isFull = true) : exec (.rbPush b) s = .next s := by
  simp [exec_rbPush, State.push, h, outcomeOf]

theorem exec_rbPop_of_ok {s t : State} {b : Byte} (h : s.pop = .ok (b, t)) :
    exec .rbPop s = .next (t.returned (.popped b)) := by
  simp only [exec, execRbPop, h]

theorem exec_rbPop_of_error {s : State} {f : Fault} (h : s.pop = .error f) : exec .rbPop s = .fault f := by
  simp only [exec, execRbPop, h]

theorem exec_readByte_of_error {s : State} {f : Fault} (h : s.pop = .error f) : exec .readByte s = .fault f := by
  simp only [exec, execReadByte, h]

/-- XLT_STEP has the faults of its iteration only. -/
theorem xltStep_of_exec_xltStep_fault {s : State} {f : Fault} (h : exec .xltStep s = .fault f) :
    s.xltStep = .error f := by
  simp only [exec, execXltStep] at h
  split at h
  · cases h
  · next hx => rw [hx, Host.Outcome.fault.inj h]

/-- NEXT_CHAR has the faults of its iteration only. -/
theorem xltStep_of_exec_nextChar_fault {s : State} {f : Fault} (h : exec .nextChar s = .fault f) :
    s.xltStep = .error f := by
  simp only [exec, execNextChar] at h
  split at h
  · cases h
  · cases h
  · next hx => rw [hx, Host.Outcome.fault.inj h]

/-! ## The statements about the ring buffer -/

/-- Settles O30: two indices in range are at most one wrap apart. -/
theorem countIsTheModularOccupancy : Obligations.CountIsTheModularOccupancy := by
  unfold Obligations.CountIsTheModularOccupancy
  intro s hh ht
  refine ⟨s.count, exec_rbCount s, s.count_lt, fun hle => ?_, fun hlt => ?_⟩
  · rw [s.count_eq hh ht, if_pos hle]
  · rw [s.count_eq hh ht, if_neg hlt.not_ge]

/-- Settles O31: both flags are conditions on the occupancy, which cannot be 0 and `C - 1` at once when `C` is at
least 2. -/
theorem emptyAndFullByOccupancy : Obligations.EmptyAndFullByOccupancy := by
  unfold Obligations.EmptyAndFullByOccupancy
  intro s hC hh ht
  have hempty := s.isEmpty_iff_count hh ht
  have hfull : s.isFull = true ↔ s.count = s.cfg.C - 1 := by
    rw [s.isFull_iff_count hh ht]
    omega
  refine ⟨hempty.symm.trans s.isEmpty_iff, hfull.symm.trans s.isFull_iff, hempty, hfull, ?_,
    fun h b => exec_rbPush_of_isFull b h⟩
  rw [hempty, hfull]
  omega

/-- Settles O32: the push of a buffer with room has a next state, and the laws of memory and of the occupancy say what
it is. -/
theorem pushStoresOrDropsTheNewest : Obligations.PushStoresOrDropsTheNewest := by
  unfold Obligations.PushStoresOrDropsTheNewest
  refine ⟨fun s b h => exec_rbPush_of_isFull b (s.isFull_iff.2 h), fun s b h hh => ?_⟩
  have hroom : s.isFull = false := Bool.eq_false_iff.2 (mt s.isFull_iff.1 h)
  obtain ⟨t, hpush⟩ := s.push_completes b hh
  have hexec : exec (.rbPush b) s = .next t := by rw [exec_rbPush, hpush, outcomeOf]
  have hempty := State.isEmpty_push hpush hroom
  have hfull := State.isFull_push hpush hroom
  obtain ⟨-, rfl⟩ := State.push_stores hpush hroom
  exact ⟨_, hexec, rfl, memRead_memWrite_same s.buf s.head b, fun a => memRead_memWrite_other s.buf s.head a b, rfl,
    hempty, hfull⟩

/-- Settles O33: the byte noted as a result touches no index, so the flags are those the pop leaves. -/
theorem popReturnsTheByteAtTail : Obligations.PopReturnsTheByteAtTail := by
  unfold Obligations.PopReturnsTheByteAtTail
  intro s b hne ht hread
  have hpop := s.pop_eq b hne ht hread
  refine ⟨_, exec_rbPop_of_ok hpop, rfl, fun hh => ?_⟩
  have hroom := State.isFull_pop hpop hh
  have hempty := State.isEmpty_pop hpop hh
  exact ⟨hroom, hempty⟩

/-- Settles O34: the two public pops pass the fault on, and the translator's pop cannot raise it. -/
theorem popOfEmptyBufferFaults : Obligations.PopOfEmptyBufferFaults := by
  unfold Obligations.PopOfEmptyBufferFaults
  refine ⟨fun s h => ?_, fun s => ?_⟩
  · exact ⟨exec_rbPop_of_error (s.pop_empty h), exec_readByte_of_error (s.pop_empty h)⟩
  · exact ⟨fun h => s.xltStep_ne_popEmpty (xltStep_of_exec_xltStep_fault h),
      fun h => s.xltStep_ne_popEmpty (xltStep_of_exec_nextChar_fault h)⟩

end Sys2Proof.Machine

/-! The scan translator (43_scan_translator.md): an iteration on a queued byte is the handling of that byte, and what
the handling of each class of byte answers. -/

namespace Sys2Proof.Machine

open Sys2Proof

/-- A CODE byte is neither prefix (30_encoding.md R67). -/
theorem isCodeByte_iff (c : Byte) : isCodeByte c = true ↔ c ≠ 0xE0#8 ∧ c ≠ 0xF0#8 := by
  simp [isCodeByte]

/-- An unmapped code is no result, a mapped one is Done (R127 step 5). -/
theorem codeResult_ret (c : Byte) : (codeResult c).ret = if c = 0#8 then .continues else .done c :=
  apply_ite XltResult.ret (c = 0#8) .continues (.done c)

/-- The build decides whether a release clears `ext` (R133). -/
theorem State.release_ext_eq (s : State) : s.release.ext = (s.ext && !s.cfg.breakClearsExt) := by
  cases h : s.cfg.breakClearsExt <;> simp [h]

/-! ## The handling of a popped byte, class by class (R127, R129) -/

theorem handleByte_prefixExt (s : State) : handleByte 0xE0#8 s = (.continues, s.setExt) := rfl

theorem handleByte_prefixBrk (s : State) : handleByte 0xF0#8 s = (.continues, s.setBrk) := rfl

theorem handleByte_release {s : State} {b : Byte} (hExt : b ≠ 0xE0#8) (hBrk : b ≠ 0xF0#8) (h : s.brk = true) :
    handleByte b s = (.continues, s.release) := by
  rw [handleByte, if_neg hExt, if_neg hBrk, if_pos h]

/-! ## One iteration, and the extended row -/

/-- With a byte queued the occupancy test passes, so the iteration is the pop and the handling of its byte (R127). -/
theorem State.xltStep_of_pop {s s' : State} {b : Byte} (h : s.pop = .ok (b, s')) (hh : s.head < s.cfg.C) :
    s.xltStep = .ok (handleByte b s') := by
  have hcount : s'.count + 1 = s.count := State.count_pop h hh
  have hne : s.count ≠ 0 := by omega
  simp only [State.xltStep, if_neg hne, h]

theorem exec_xltStep_of_ok {s : State} {r : XltResult × State} (h : s.xltStep = .ok r) :
    exec .xltStep s = returnXlt r := by
  simp only [exec, execXltStep, h]

theorem exec_scanCodeExt {s : State} {c : Byte} (hcode : isCodeByte c = true) (hbrk : s.brk = false)
    (hext : s.ext = true) : exec (.scanCodeExt c) s = returnXlt (s.lookupExt c) :=
  if_pos ⟨hcode, by rw [hbrk]; rfl, hext⟩

/-! ## The statements about the scan translator -/

/-- Settles O45: the pop leaves both flags, and each class of byte is decided by the first test that it meets. -/
theorem prefixTestsComeFirst : Obligations.PrefixTestsComeFirst := by
  unfold Obligations.PrefixTestsComeFirst
  intro s b hh ht hne hread
  have hstep := exec_xltStep_of_ok (State.xltStep_of_pop (s.pop_eq b hne ht hread) hh)
  refine ⟨_, hstep, ?_, ?_, fun hExt hBrk hbrk => ?_⟩
  · rintro rfl
    rw [handleByte_prefixExt]
    exact ⟨rfl, rfl, rfl⟩
  · rintro rfl
    rw [handleByte_prefixBrk]
    exact ⟨rfl, rfl, rfl⟩
  · rw [handleByte_release hExt hBrk]
    · exact ⟨rfl, State.release_ext_eq _, rfl⟩
    · exact hbrk

/-- Settles O41: the flags select the row, and only its result depends on the entry. -/
theorem extendedCodeIsLookedUpAndClearsExt : Obligations.ExtendedCodeIsLookedUpAndClearsExt := by
  unfold Obligations.ExtendedCodeIsLookedUpAndClearsExt
  intro s c hExt hBrk hbrk hext
  rw [exec_scanCodeExt ((isCodeByte_iff c).2 ⟨hExt, hBrk⟩) hbrk hext, ← codeResult_ret]
  rfl

end Sys2Proof.Machine

/-! The public operations (44_public_operations.md): INIT, what READ_BYTE takes from the queue, and the operations of a
block that INIT has not enabled yet. -/

namespace Sys2Proof.Machine

open Sys2Proof

/-! ## INIT (R145, R146) -/

theorem exec_init_of_disabled {s : State} (h : s.en = false) :
    exec .init s = .next { s.clearDecoder with en := true } := by
  simp only [exec, execInit, h, Bool.false_eq_true, if_false]

theorem exec_init_of_enabled {s : State} (h : s.en = true) : exec .init s = .refused .reinit :=
  if_pos h

/-- An empty buffer of at least two slots has room for a byte (R111). -/
theorem State.isFull_of_isEmpty {s : State} (hC : 2 ≤ s.cfg.C) (ht : s.tail < s.cfg.C) (h : s.isEmpty = true) :
    s.isFull = false := by
  have heq : s.head = s.tail := s.isEmpty_iff.1 h
  have hcount : s.count = 0 := State.count_of_head_eq_tail heq
  rw [Bool.eq_false_iff, Ne, s.isFull_iff_count (heq ▸ ht) ht]
  omega

/-! ## The consumer's operations, with a byte queued and with none -/

theorem exec_available (s : State) : exec .available s = .next (s.returned (.available (decide (s.count ≠ 0)))) := rfl

theorem exec_readByte_of_ok {s t : State} {b : Byte} (h : s.pop = .ok (b, t)) :
    exec .readByte s = .next (t.returned (.byte b)) := by
  simp only [exec, execReadByte, h]

/-- On an empty buffer the iteration is Done with the sentinel (R127 step 1, R134). -/
theorem State.xltStep_of_count_eq_zero {s : State} (h : s.count = 0) : s.xltStep = .ok (.done 0#8, s) :=
  if_pos h

/-- An iteration that is Done ends the call with its code (R128). -/
theorem exec_nextChar_of_done {s t : State} {c : Byte} (h : s.xltStep = .ok (.done c, t)) :
    exec .nextChar s = .next (t.returned (.char c)) := by
  simp only [exec, execNextChar, h]

/-! ## The producer's events before INIT (R91) -/

/-- However many edges come while the gate is closed, none is delivered. -/
theorem runEdges_gated {s : State} (hen : s.en = false) (es : List EdgeEvent) : runEdges es s = .next s := by
  induction es with
  | nil => rfl
  | cons e es ih => rw [runEdges_cons (execEdge_gated e.d e.now s hen), ih]

theorem exec_frame (b : Byte) (p : Bool) (t dt : Nat) (s : State) :
    exec (.frame b p t dt) s = runEdges (frameEdges b p t dt) s := rfl

/-! ## The statements about the public operations -/

/-- Settles O12: an occupancy of 0 decides AVAILABLE and NEXT_CHAR, the pop's precondition fails, and the gate stops
each edge. -/
theorem beforeInitNothingIsReceived : Obligations.BeforeInitNothingIsReceived := by
  unfold Obligations.BeforeInitNothingIsReceived
  intro s hen hempty
  have hcount : s.count = 0 := State.count_of_head_eq_tail hempty
  refine ⟨?_, ?_, ?_, ?_, ?_⟩
  · rw [exec_available, hcount]
    rfl
  · exact exec_nextChar_of_done (State.xltStep_of_count_eq_zero hcount)
  · exact exec_readByte_of_error (s.pop_empty hempty)
  · exact fun d now => execEdge_gated d now s hen
  · exact fun b p t dt => (exec_frame b p t dt s).trans (runEdges_gated hen _)

/-- Settles O10: INIT puts both indices at slot 0, so the buffer is empty, and RESET leaves nothing but `en` for it to
write. -/
theorem initResetsDecoderAndBufferAndEnables : Obligations.InitResetsDecoderAndBufferAndEnables := by
  unfold Obligations.InitResetsDecoderAndBufferAndEnables
  refine ⟨fun s hen => ?_, exec_init_of_disabled rfl⟩
  exact ⟨_, exec_init_of_disabled hen, rfl, State.count_of_head_eq_tail rfl, rfl,
    fun hC => State.isFull_of_isEmpty hC (C_pos s.cfg) rfl⟩

/-- Settles O11. -/
theorem secondInitIsRefused : Obligations.SecondInitIsRefused := by
  unfold Obligations.SecondInitIsRefused
  exact fun s hen => exec_init_of_enabled hen

/-- Settles O38: READ_BYTE is the pop, with its byte noted as the result. -/
theorem readByteRemovesTheOldestByte : Obligations.ReadByteRemovesTheOldestByte := by
  unfold Obligations.ReadByteRemovesTheOldestByte
  intro s b hne ht hread
  exact exec_readByte_of_ok (s.pop_eq b hne ht hread)

end Sys2Proof.Machine

/-! The trace encoding (30_encoding.md section 4, notes/assumptions/6.md): times, levels and frames as operands, the
round trip of every instruction, and what decoding may consume. -/

namespace Sys2Proof

/-! ## Times and levels as operands -/

/-- The bytes of a number that fits give it back. -/
theorem natOfBytes_bytesOfNat (fuel n : Nat) (h : n < 256 ^ fuel) : natOfBytes (bytesOfNat fuel n) = n := by
  induction fuel generalizing n with
  | zero => simp at h; simp [bytesOfNat, natOfBytes, h]
  | succ fuel ih =>
    unfold bytesOfNat
    split
    · next hzero => exact hzero.symm
    · have hquot : n / 256 < 256 ^ fuel := Nat.div_lt_of_lt_mul (by rwa [pow_succ'] at h)
      rw [natOfBytes, ih _ hquot, BitVec.toNat_ofNat]
      exact Nat.mod_add_div n 256

theorem length_bytesOfNat_le (fuel n : Nat) : (bytesOfNat fuel n).length ≤ fuel := by
  induction fuel generalizing n with
  | zero => rfl
  | succ fuel ih =>
    unfold bytesOfNat
    split
    · exact Nat.zero_le _
    · exact Nat.succ_le_succ (ih _)

theorem natOfBytes_lt (bs : List Byte) : natOfBytes bs < 256 ^ bs.length := by
  induction bs with
  | nil => exact Nat.one_pos
  | cons b bs ih =>
    have hb : b.toNat < 256 := b.isLt
    rw [natOfBytes, List.length_cons, pow_succ']
    omega

theorem timeOk_iff (t : Nat) : timeOk t = true ↔ t < 256 ^ maxTimeBytes := decide_eq_true_iff

/-- A time in range is read back from its bytes. -/
theorem decodeTime_encodeTime (t : Nat) (rest : List Byte) (h : timeOk t = true) :
    decodeTime (encodeTime t ++ rest) = .ok (t, rest) := by
  have hlen : (bytesOfNat maxTimeBytes t).length ≤ 255 := length_bytesOfNat_le maxTimeBytes t
  have hcount : (BitVec.ofNat 8 (bytesOfNat maxTimeBytes t).length).toNat = (bytesOfNat maxTimeBytes t).length := by
    rw [BitVec.toNat_ofNat]
    omega
  have hroom : ¬ (bytesOfNat maxTimeBytes t ++ rest).length < (bytesOfNat maxTimeBytes t).length := by simp
  simp only [encodeTime, List.cons_append, decodeTime, hcount]
  rw [if_neg hroom, List.take_left, List.drop_left, natOfBytes_bytesOfNat _ _ ((timeOk_iff t).1 h)]

/-- A time that is read fits the encoding, and its bytes come from the front. -/
theorem decodeTime_ok {bs rest : List Byte} {t : Nat} (h : decodeTime bs = .ok (t, rest)) :
    timeOk t = true ∧ rest <:+ bs := by
  cases bs with
  | nil => cases h
  | cons n bs =>
    simp only [decodeTime] at h
    split_ifs at h
    obtain ⟨rfl, rfl⟩ := Prod.mk.inj (Except.ok.inj h)
    have hn : n.toNat ≤ maxTimeBytes := Nat.le_of_lt_succ n.isLt
    refine ⟨(timeOk_iff _).2 ?_, (List.drop_suffix _ _).trans (List.suffix_cons n bs)⟩
    calc natOfBytes (bs.take n.toNat) < 256 ^ (bs.take n.toNat).length := natOfBytes_lt _
      _ ≤ 256 ^ maxTimeBytes := Nat.pow_le_pow_right (by decide) ((List.length_take_le _ _).trans hn)

theorem decodeLevel_encodeLevel (d : Bool) : decodeLevel (encodeLevel d) = .ok d := by
  cases d <;> rfl

/-! ## The eleven levels of a frame in two bytes (R61) -/

/-- START is the lowest bit, and 0. -/
theorem getLsbD_zero_frameLow (b : Byte) : (frameLow b).getLsbD 0 = false := by
  simp [frameLow]

/-- STOP, the highest of the three upper levels, is 1. -/
theorem getLsbD_two_frameHigh (b : Byte) (p : Bool) : (frameHigh b p).getLsbD 2 = true := by
  cases p <;> simp [frameHigh]

/-- PARITY is the middle one. -/
theorem getLsbD_one_frameHigh (b : Byte) (p : Bool) : (frameHigh b p).getLsbD 1 = p := by
  cases p <;> simp [frameHigh]

/-- No bit stands above STOP. -/
theorem frameHigh_ushiftRight_three (b : Byte) (p : Bool) : frameHigh b p >>> 3 = 0#8 := by
  have hb : b >>> 7 >>> 3 = 0#8 := by
    rw [← BitVec.shiftRight_add]
    exact BitVec.ushiftRight_eq_zero (by decide)
  rw [frameHigh, BitVec.ushiftRight_or_distrib, hb]
  cases p <;> rfl

/-- The data bits D0 to D7 are the byte. -/
theorem dataBits_frameLow_frameHigh (b : Byte) (p : Bool) : (frameLow b >>> 1) ||| (frameHigh b p <<< 7) = b := by
  have hhigh : frameHigh b p <<< 7 = b >>> 7 <<< 7 := by
    rw [frameHigh, BitVec.shiftLeft_or_distrib]
    cases p <;> simp
  rw [hhigh, frameLow]
  apply BitVec.eq_of_getLsbD_eq
  intro j hj
  rcases Nat.lt_or_ge j 7 with hlt | hge
  · simp [hj, hlt]; omega
  · obtain rfl : j = 7 := by omega
    simp

/-! ## The formats with operands -/

theorem decodeEdge_encode (d : Bool) (now : Nat) (rest : List Byte) (h : timeOk now = true) :
    decodeEdge (encodeLevel d :: (encodeTime now ++ rest)) = .ok (.edge d now, rest) := by
  simp only [decodeEdge, decodeLevel_encodeLevel, decodeTime_encodeTime now rest h]

theorem decodeFrame_encode (b : Byte) (p : Bool) (t dt : Nat) (rest : List Byte)
    (ht : timeOk t = true) (hdt : timeOk dt = true) :
    decodeFrame (frameLow b :: frameHigh b p :: (encodeTime t ++ (encodeTime dt ++ rest))) =
      .ok (.frame b p t dt, rest) := by
  simp only [decodeFrame, getLsbD_zero_frameLow, getLsbD_two_frameHigh, frameHigh_ushiftRight_three,
    decodeTime_encodeTime t _ ht, decodeTime_encodeTime dt rest hdt, dataBits_frameLow_frameHigh,
    getLsbD_one_frameHigh]
  rfl

theorem decodeCode_of_isCodeByte (row : Byte → Instr) (c : Byte) (rest : List Byte) (h : isCodeByte c = true) :
    decodeCode row (c :: rest) = .ok (row c, rest) :=
  if_pos h

/-- Settles O1: the first byte selects the format and the row, and each operand is read back from its own bytes. -/
theorem encodeThenDecodeGivesInstructionBack : Obligations.EncodeThenDecodeGivesInstructionBack := by
  unfold Obligations.EncodeThenDecodeGivesInstructionBack
  intro i rest hwf
  cases i with
  | edge d now => exact decodeEdge_encode d now rest hwf
  | frame b p t dt =>
    obtain ⟨ht, hdt⟩ := Bool.and_eq_true_iff.1 hwf
    have hbytes : encode (.frame b p t dt) ++ rest =
        0x20#8 :: frameLow b :: frameHigh b p :: (encodeTime t ++ (encodeTime dt ++ rest)) := by
      simp only [encode, List.cons_append, List.append_assoc]
    rw [hbytes]
    exact decodeFrame_encode b p t dt rest ht hdt
  | scanCodeRelease c => exact decodeCode_of_isCodeByte .scanCodeRelease c rest hwf
  | scanCodeExt c => exact decodeCode_of_isCodeByte .scanCodeExt c rest hwf
  | scanCodeNormal c => exact decodeCode_of_isCodeByte .scanCodeNormal c rest hwf
  | edgeData d => cases d <;> rfl
  | edgeParityOk d => cases d <;> rfl
  | edgeParityFail d => cases d <;> rfl
  | rbPush b => rfl
  | init | available | readByte | nextChar | xltStep | rbPop | rbCount | reset => rfl
  | edgeIdleStart | edgeIdleIgnore | edgeStopBad | edgeStopOk | scanPrefixExt | scanPrefixBrk => rfl

/-! ## What a successful decoding says -/

/-- Where the bytes decode, the instruction is well formed and what is left is the end of them. -/
def ReadsFrom (bs : List Byte) (d : Decoded) : Prop :=
  ∀ i rest, d = .ok (i, rest) → i.wf = true ∧ rest <:+ bs

theorem readsFrom_ok {i : Instr} (h : i.wf = true) (bs : List Byte) : ReadsFrom bs (.ok (i, bs)) := by
  intro j rest hj
  obtain ⟨rfl, rfl⟩ := Prod.mk.inj (Except.ok.inj hj)
  exact ⟨h, List.suffix_refl _⟩

theorem readsFrom_error (e : DecodeError) (bs : List Byte) : ReadsFrom bs (.error e) :=
  fun _ _ h => nomatch h

theorem ReadsFrom.cons {bs : List Byte} {d : Decoded} (h : ReadsFrom bs d) (b : Byte) : ReadsFrom (b :: bs) d :=
  fun i rest hd => (h i rest hd).imp_right fun hsuffix => hsuffix.trans (List.suffix_cons b bs)

theorem decodeEdge_readsFrom (bs : List Byte) : ReadsFrom bs (decodeEdge bs) := by
  intro i rest h
  cases bs with
  | nil => cases h
  | cons b bs =>
    simp only [decodeEdge] at h
    split at h
    · cases h
    · split at h
      · cases h
      · next now rest' htime =>
        obtain ⟨rfl, rfl⟩ := Prod.mk.inj (Except.ok.inj h)
        obtain ⟨hok, hsuffix⟩ := decodeTime_ok htime
        exact ⟨hok, hsuffix.trans (List.suffix_cons b bs)⟩

theorem decodeFrame_readsFrom (bs : List Byte) : ReadsFrom bs (decodeFrame bs) := by
  intro i rest h
  unfold decodeFrame at h
  split at h
  · next lo hi bs =>
    split at h
    · cases h
    · split at h
      · cases h
      · next t bs' ht =>
        split at h
        · cases h
        · next dt rest' hdt =>
          obtain ⟨rfl, rfl⟩ := Prod.mk.inj (Except.ok.inj h)
          obtain ⟨hok, hsuffix⟩ := decodeTime_ok ht
          obtain ⟨hok', hsuffix'⟩ := decodeTime_ok hdt
          exact ⟨Bool.and_eq_true_iff.2 ⟨hok, hok'⟩,
            (hsuffix'.trans hsuffix).trans ((List.suffix_cons hi bs).trans (List.suffix_cons lo _))⟩
  · cases h

theorem decodeCode_readsFrom {row : Byte → Instr} (hrow : ∀ c, (row c).wf = isCodeByte c) (bs : List Byte) :
    ReadsFrom bs (decodeCode row bs) := by
  cases bs with
  | nil => exact readsFrom_error _ _
  | cons c bs =>
    by_cases hc : isCodeByte c = true
    · rw [decodeCode_of_isCodeByte row c bs hc]
      exact (readsFrom_ok ((hrow c).trans hc) bs).cons c
    · rw [decodeCode, if_neg hc]
      exact readsFrom_error _ _

theorem decodePush_readsFrom (bs : List Byte) : ReadsFrom bs (decodePush bs) := by
  cases bs with
  | nil => exact readsFrom_error _ _
  | cons b bs => exact (readsFrom_ok rfl bs).cons b

theorem ReadsFrom.ite {bs : List Byte} {c : Prop} [Decidable c] {d e : Decoded} (hd : ReadsFrom bs d)
    (he : ReadsFrom bs e) : ReadsFrom bs (if c then d else e) := by
  split
  · exact hd
  · exact he

theorem decodeOperation_readsFrom (b : Byte) (bs : List Byte) : ReadsFrom bs (decodeOperation b bs) :=
  .ite (readsFrom_ok rfl bs) <| .ite (decodeEdge_readsFrom bs) <| .ite (readsFrom_ok rfl bs) <|
  .ite (readsFrom_ok rfl bs) <| .ite (readsFrom_ok rfl bs) <| .ite (readsFrom_ok rfl bs) <|
  .ite (decodePush_readsFrom bs) <| .ite (readsFrom_ok rfl bs) <| .ite (readsFrom_ok rfl bs) <|
  .ite (readsFrom_ok rfl bs) <| readsFrom_error _ bs

theorem decodeDispatch_readsFrom (b : Byte) (bs : List Byte) : ReadsFrom bs (decodeDispatch b bs) :=
  .ite (readsFrom_ok rfl bs) <| .ite (readsFrom_ok rfl bs) <| .ite (readsFrom_ok rfl bs) <|
  .ite (readsFrom_ok rfl bs) <| .ite (readsFrom_ok rfl bs) <| .ite (readsFrom_ok rfl bs) <|
  .ite (readsFrom_ok rfl bs) <| .ite (readsFrom_ok rfl bs) <| .ite (readsFrom_ok rfl bs) <|
  .ite (readsFrom_ok rfl bs) <| readsFrom_error _ bs

theorem decodeFrameOrScan_readsFrom (b : Byte) (bs : List Byte) : ReadsFrom bs (decodeFrameOrScan b bs) :=
  .ite (decodeFrame_readsFrom bs) <| .ite (decodeCode_readsFrom (fun _ => rfl) bs) <|
  .ite (decodeCode_readsFrom (fun _ => rfl) bs) <| .ite (decodeCode_readsFrom (fun _ => rfl) bs) <|
  .ite (readsFrom_ok rfl bs) <| .ite (readsFrom_ok rfl bs) <| readsFrom_error _ bs

/-- Behind the first byte the rows of the three format groups read on. -/
theorem decode_cons_readsFrom (b : Byte) (bs : List Byte) : ReadsFrom bs (decode (b :: bs)) :=
  .ite (decodeOperation_readsFrom b bs) <| .ite (decodeDispatch_readsFrom b bs) <| decodeFrameOrScan_readsFrom b bs

/-- Settles O2: the first byte is always used, and behind it each format leaves the end of what it was given. -/
theorem decodedInstructionIsWellFormed : Obligations.DecodedInstructionIsWellFormed := by
  unfold Obligations.DecodedInstructionIsWellFormed
  intro bs rest i h
  cases bs with
  | nil => cases h
  | cons b bs =>
    obtain ⟨hwf, used, hused⟩ := decode_cons_readsFrom b bs i rest h
    exact ⟨hwf, b :: used, List.cons_ne_nil b used, by rw [← hused]; rfl⟩

/-! ## The codes of the operations -/

/-- Settles O3: twelve fixed words, read as the tables of R72 and R67 list them. -/
theorem operationCodesDecodeToTheirRows : Obligations.OperationCodesDecodeToTheirRows := by
  unfold Obligations.OperationCodesDecodeToTheirRows
  exact ⟨rfl, rfl, rfl, rfl, rfl, rfl, rfl, rfl, rfl, rfl, rfl, rfl⟩

theorem decode_unusedOperation {b : Byte} (hlow : 9 ≤ b.toNat) (hhigh : b.toNat ≤ 14) (rest : List Byte) :
    decode (b :: rest) = .error (.unusedOperation b) := by
  have hcases : b = 9#8 ∨ b = 10#8 ∨ b = 11#8 ∨ b = 12#8 ∨ b = 13#8 ∨ b = 14#8 := by
    simp only [BitVec.toNat_eq, BitVec.toNat_ofNat]
    omega
  obtain rfl | rfl | rfl | rfl | rfl | rfl := hcases <;> rfl

/-- Settles O4: with the lane empty the step fetches, and the code is none of R72's. -/
theorem unusedOperationCodesAreRefused : Obligations.UnusedOperationCodesAreRefused := by
  unfold Obligations.UnusedOperationCodesAreRefused
  intro s b rest hlow hhigh henv hprog
  simp only [Machine.step, Machine.stepWith, henv, Machine.fetch, hprog, decode_unusedOperation hlow hhigh rest]

end Sys2Proof

/-! The step (20_memory.md section 4): the lane, the fetch, and the operation that runs; the lines' waveform; RESET. -/

namespace Sys2Proof.Machine

open Sys2Proof

/-! ## The lane and the fetch -/

theorem step_of_edgeEvent {s : State} {e : EdgeEvent} {es : List (Option EdgeEvent)} (h : s.env = some e :: es) :
    step s = exec (.edge e.d e.now) { s with env := es } := by
  simp only [step, stepWith, h]

/-- With no edge event now, the step is the fetch on the state whose lane has moved on. -/
theorem step_of_noEdgeEvent {s : State} {es : List (Option EdgeEvent)}
    (h : (s.env = [] ∧ es = []) ∨ s.env = none :: es) : step s = fetch exec { s with env := es } := by
  rcases h with ⟨henv, rfl⟩ | henv
  · simp only [step, stepWith, henv]
    rw [← henv]
  · simp only [step, stepWith, henv]

theorem fetch_of_noTrace {run : Instr → State → Out} {s : State} (h : s.prog = []) : fetch run s = .next s := by
  simp only [fetch, h]

theorem fetch_of_decode {run : Instr → State → Out} {s : State} {i : Instr} {rest : List Byte}
    (h : decode s.prog = .ok (i, rest)) : fetch run s = run i { s with prog := rest } := by
  cases hprog : s.prog with
  | nil => simp [hprog, decode] at h
  | cons b bs =>
    rw [hprog] at h
    simp only [fetch, hprog, h]

/-- What the fetch answers: the state as it is, or what an instruction answers on the state behind its bytes. -/
theorem fetch_next {run : Instr → State → Out} {s t : State} (h : fetch run s = .next t) :
    t = s ∨ ∃ i rest, run i { s with prog := rest } = .next t := by
  unfold fetch at h
  split at h
  · exact .inl (Host.Outcome.next.inj h).symm
  · split at h
    · next i rest _ => exact .inr ⟨i, rest, h⟩
    · cases h

/-- What a step answers: the trace and the lane move on, and then one operation runs or none. -/
theorem step_next {s t : State} (h : step s = .next t) :
    ∃ prog env, t = { s with prog := prog, env := env } ∨
      ∃ i, exec i { s with prog := prog, env := env } = .next t := by
  have hfetch : ∀ es, fetch exec { s with env := es } = .next t → ∃ prog env,
      t = { s with prog := prog, env := env } ∨ ∃ i, exec i { s with prog := prog, env := env } = .next t := by
    intro es hes
    obtain rfl | ⟨i, rest, hi⟩ := fetch_next hes
    · exact ⟨s.prog, es, .inl rfl⟩
    · exact ⟨rest, es, .inr ⟨i, hi⟩⟩
  cases henv : s.env with
  | nil => exact hfetch [] (step_of_noEdgeEvent (.inl ⟨henv, rfl⟩) ▸ h)
  | cons entry es =>
    cases entry with
    | none => exact hfetch es (step_of_noEdgeEvent (.inr henv) ▸ h)
    | some e => exact ⟨s.prog, es, .inr ⟨_, step_of_edgeEvent henv ▸ h⟩⟩

/-- Settles O5. -/
theorem stepRunsTheDecodedInstruction : Obligations.StepRunsTheDecodedInstruction := by
  unfold Obligations.StepRunsTheDecodedInstruction
  intro s i rest es hlane hdecode
  have hfetch := fetch_of_decode (run := exec) (s := { s with env := es }) hdecode
  exact (step_of_noEdgeEvent hlane).trans hfetch

/-- Settles O6: the lane is looked at before the trace, and an empty trace is no operation. -/
theorem edgeEventPreemptsTheTrace : Obligations.EdgeEventPreemptsTheTrace := by
  unfold Obligations.EdgeEventPreemptsTheTrace
  refine ⟨fun s e es henv => step_of_edgeEvent henv, fun s es hlane hprog => ?_⟩
  have hfetch := fetch_of_noTrace (run := exec) (s := { s with env := es }) hprog
  exact (step_of_noEdgeEvent hlane).trans hfetch

/-! ## From the lines to edge events (R60) -/

/-- The first sample is compared with the level before the waveform, each other one with the sample before it. -/
theorem edgeEvents_eq_filter (pol : EdgePol) (clk : Bool) (w : List LineSample) :
    edgeEvents pol clk w =
      ((List.zip (clk :: w.map LineSample.clk) w).filter fun p => triggers pol p.1 p.2.clk).map
        fun p => ⟨p.2.data, p.2.now⟩ := by
  induction w generalizing clk with
  | nil => rfl
  | cons x xs ih =>
    rw [edgeEvents, List.map_cons, List.zip_cons_cons, List.filter_cons]
    by_cases hx : triggers pol clk x.clk = true
    · rw [if_pos hx, if_pos hx, ih, List.map_cons]
    · rw [if_neg hx, if_neg hx, ih]

/-- Settles O7: the filter's condition is the trigger transition of either polarity. -/
theorem oneEdgeEventPerTriggerTransition : Obligations.OneEdgeEventPerTriggerTransition := by
  unfold Obligations.OneEdgeEventPerTriggerTransition
  intro pol clk w
  cases pol with
  | falling => exact edgeEvents_eq_filter .falling clk w
  | rising => exact edgeEvents_eq_filter .rising clk w

/-! ## Power-on and RESET (R180) -/

/-- Settles O8: the reset state is a literal. -/
theorem powerOnStateIsAsResetLeavesIt : Obligations.PowerOnStateIsAsResetLeavesIt := by
  unfold Obligations.PowerOnStateIsAsResetLeavesIt
  exact ⟨rfl, rfl, rfl, rfl, rfl, rfl, rfl, rfl, rfl, rfl, memRead_nil, rfl, rfl, rfl, rfl, rfl⟩

theorem exec_reset (s : State) :
    exec .reset s = .next { s.clearDecoder with en := false, ext := false, brk := false, buf := [] } := rfl

/-- Settles O9: RESET is one update of every register, and forgets the slots. -/
theorem resetWritesEveryRegister : Obligations.ResetWritesEveryRegister := by
  unfold Obligations.ResetWritesEveryRegister
  intro s
  exact ⟨_, exec_reset s, rfl, rfl, rfl, rfl, rfl, rfl, rfl, rfl, rfl, rfl, memRead_nil, rfl, rfl, rfl, rfl⟩

end Sys2Proof.Machine

/-! The ring as a queue (20_memory.md section 5): which slots are queued, what a push and a pop make of the queue, and
that both keep the ring's part of the invariant. -/

namespace Sys2Proof.Machine

open Sys2Proof

/-! ## The queued slots -/

theorem State.length_queue (s : State) : s.queue.length = s.count := by
  rw [State.queue, List.length_map, List.length_range]

/-- The queue is made of the build, the indices and BUF. -/
theorem State.queue_congr {s t : State} (hcfg : t.cfg = s.cfg) (hhead : t.head = s.head) (htail : t.tail = s.tail)
    (hbuf : t.buf = s.buf) : t.queue = s.queue := by
  have hslot : t.slot = s.slot := funext fun k => by rw [State.slot, State.slot, hcfg, htail, hbuf]
  rw [State.queue, State.queue, State.count, State.count, hslot, hcfg, hhead, htail]

/-- R56 speaks of the queue's entries. -/
theorem State.slots_isSome_iff (s : State) :
    (∀ k, k < s.count → (s.slot k).isSome = true) ↔ ∀ x ∈ s.queue, x.isSome = true := by
  simp only [State.queue, List.forall_mem_map, List.mem_range]

/-- The oldest queued slot is the one at `tail`. -/
theorem State.slot_zero {s : State} (ht : s.tail < s.cfg.C) : s.slot 0 = memRead s.buf s.tail := by
  rw [State.slot, Nat.add_zero, Nat.mod_eq_of_lt ht]

/-- The slot behind the newest queued one is the one at `head`. -/
theorem State.tail_add_count_mod {s : State} (hh : s.head < s.cfg.C) (ht : s.tail < s.cfg.C) :
    (s.tail + s.count) % s.cfg.C = s.head := by
  rw [s.count_eq hh ht]
  split
  · next hle => rw [Nat.add_sub_cancel' hle, Nat.mod_eq_of_lt hh]
  · rw [show s.tail + (s.head + s.cfg.C - s.tail) = s.head + s.cfg.C by omega, Nat.add_mod_right, Nat.mod_eq_of_lt hh]

/-- No queued slot is the one at `head`. -/
theorem State.tail_add_mod_ne_head {s : State} (hh : s.head < s.cfg.C) (ht : s.tail < s.cfg.C) {k : Nat}
    (hk : k < s.count) : (s.tail + k) % s.cfg.C ≠ s.head := by
  intro heq
  have hcount := State.tail_add_count_mod hh ht
  have hlt : s.count < s.cfg.C := s.count_lt
  have hmod : k ≡ s.count [MOD s.cfg.C] := Nat.ModEq.add_left_cancel' s.tail (heq.trans hcount.symm)
  exact hk.ne (hmod.eq_of_lt_of_lt (hk.trans hlt) hlt)

/-! ## RB_PUSH and RB_POP on the queue (R117) -/

/-- A push that is not dropped appends its byte. -/
theorem State.queue_push {s t : State} {b : Byte} (h : s.push b = .ok t) (hroom : s.isFull = false)
    (ht : s.tail < s.cfg.C) : t.queue = s.queue ++ [some b] := by
  have hcount := State.count_push h hroom ht
  obtain ⟨hh, rfl⟩ := State.push_stores h hroom
  have hnew : memRead (memWrite s.buf s.head b) ((s.tail + s.count) % s.cfg.C) = some b := by
    rw [State.tail_add_count_mod hh ht, memRead_memWrite_same]
  have hold : ∀ k ∈ List.range s.count, memRead (memWrite s.buf s.head b) ((s.tail + k) % s.cfg.C) = s.slot k :=
    fun k hk => memRead_memWrite_other _ _ _ _ (State.tail_add_mod_ne_head hh ht (List.mem_range.1 hk))
  rw [State.queue, hcount, List.range_succ, List.map_append, State.queue]
  exact congrArg₂ (· ++ ·) (List.map_congr_left hold) (congrArg (fun x => [x]) hnew)

/-- The state behind a pop: `tail` has moved on, every other field is as it was. -/
def State.popped (s : State) : State := { s with tail := s.nextIndex s.tail }

theorem State.eq_popped_of_pop {s t : State} {b : Byte} (h : s.pop = .ok (b, t)) : t = s.popped := by
  obtain ⟨-, -, -, heq⟩ := s.pop_ok t b h
  exact heq

/-- A pop takes the queue's first byte. -/
theorem State.queue_pop {s t : State} {b : Byte} (h : s.pop = .ok (b, t)) (hh : s.head < s.cfg.C) :
    s.queue = some b :: t.queue := by
  have hcount := State.count_pop h hh
  obtain ⟨-, ht, hread, -⟩ := s.pop_ok t b h
  obtain rfl := State.eq_popped_of_pop h
  have hrest : ∀ k, s.slot (k + 1) = s.popped.slot k := by
    intro k
    simp only [State.slot, State.popped, State.nextIndex, Nat.mod_add_mod]
    congr 2
    omega
  rw [State.queue, ← hcount, List.range_succ_eq_map, List.map_cons, List.map_map, State.slot_zero ht, hread]
  exact congrArg _ (List.map_congr_left fun k _ => hrest k)

/-- Where a byte is first in the queue, a pop takes it. -/
theorem State.pop_of_queue {s : State} {b : Byte} {q : List (Option Byte)} (hh : s.head < s.cfg.C)
    (ht : s.tail < s.cfg.C) (h : s.queue = some b :: q) :
    s.pop = .ok (b, s.popped) ∧ s.popped.queue = q := by
  have hcount : s.count = q.length + 1 := by rw [← s.length_queue, h, List.length_cons]
  have hne : s.head ≠ s.tail := fun heq => by simp [State.count_of_head_eq_tail heq] at hcount
  have hread : memRead s.buf s.tail = some b := by
    rw [State.queue, hcount, List.range_succ_eq_map, List.map_cons, State.slot_zero ht] at h
    exact (List.cons.inj h).1
  have hpop : s.pop = .ok (b, s.popped) := s.pop_eq b hne ht hread
  exact ⟨hpop, (List.cons.inj ((State.queue_pop hpop hh).symm.trans h)).2⟩

/-! ## The ring's part of the invariant -/

/-- What the invariant says of the build, the indices and BUF (R32, R56). -/
def State.RingInv (s : State) : Prop := s.cfg.wf = true ∧ s.IndexInv ∧ s.BufInv

theorem State.inv_iff (s : State) : s.Inv ↔ s.RingInv ∧ s.FrameInv ∧ s.tLast < s.cfg.period :=
  ⟨fun ⟨hwf, hindex, hframe, hbuf, htime⟩ => ⟨⟨hwf, hindex, hbuf⟩, hframe, htime⟩,
    fun ⟨⟨hwf, hindex, hbuf⟩, hframe, htime⟩ => ⟨hwf, hindex, hframe, hbuf, htime⟩⟩

theorem State.Inv.ringInv {s : State} (h : s.Inv) : s.RingInv := (s.inv_iff.1 h).1

theorem State.Inv.frameInv {s : State} (h : s.Inv) : s.FrameInv := (s.inv_iff.1 h).2.1

theorem State.RingInv.head_lt {s : State} : s.RingInv → s.head < s.cfg.C
  | ⟨_, ⟨hh, _, _⟩, _⟩ => hh

theorem State.RingInv.tail_lt {s : State} : s.RingInv → s.tail < s.cfg.C
  | ⟨_, ⟨_, ht, _⟩, _⟩ => ht

theorem State.RingInv.queue_isSome {s : State} : s.RingInv → ∀ x ∈ s.queue, x.isSome = true
  | ⟨_, _, _, _, hslots⟩ => s.slots_isSome_iff.1 hslots

/-- The ring's invariant from its parts; the bound on the occupancy needs no proof of its own. -/
theorem State.ringInv_of_queue {s : State} (hwf : s.cfg.wf = true) (hh : s.head < s.cfg.C) (ht : s.tail < s.cfg.C)
    (hbuf : Memory.wf s.buf = true) (hbelow : Memory.below s.cfg.C s.buf = true)
    (hqueue : ∀ x ∈ s.queue, x.isSome = true) : s.RingInv :=
  ⟨hwf, ⟨hh, ht, Nat.le_sub_one_of_lt s.count_lt⟩, hbuf, hbelow, s.slots_isSome_iff.2 hqueue⟩

theorem State.RingInv.congr {s t : State} (h : s.RingInv) (hcfg : t.cfg = s.cfg) (hhead : t.head = s.head)
    (htail : t.tail = s.tail) (hbuf : t.buf = s.buf) : t.RingInv := by
  obtain ⟨hwf, ⟨hh, ht, -⟩, hmem, hbelow, -⟩ := id h
  refine State.ringInv_of_queue ?_ ?_ ?_ ?_ ?_ ?_
  · rwa [hcfg]
  · rwa [hhead, hcfg]
  · rwa [htail, hcfg]
  · rwa [hbuf]
  · rwa [hbuf, hcfg]
  · rw [State.queue_congr hcfg hhead htail hbuf]
    exact h.queue_isSome

theorem State.RingInv.push {s t : State} {b : Byte} (h : s.RingInv) (hpush : s.push b = .ok t) : t.RingInv := by
  cases hroom : s.isFull with
  | true =>
    obtain ⟨-, rfl⟩ | ⟨hnot, -⟩ := s.push_ok t b hpush
    · exact h
    · simp [hroom] at hnot
  | false =>
    have hqueue := State.queue_push hpush hroom h.tail_lt
    obtain ⟨hh, rfl⟩ := State.push_stores hpush hroom
    obtain ⟨hwf, -, hmem, hbelow, -⟩ := id h
    refine State.ringInv_of_queue hwf (s.nextIndex_lt _) h.tail_lt (memWrite_wf _ _ _ hmem)
      (memWrite_below _ _ _ _ hh hbelow) ?_
    rw [hqueue, List.forall_mem_append]
    exact ⟨h.queue_isSome, by simp⟩

theorem State.RingInv.pop {s t : State} {b : Byte} (h : s.RingInv) (hpop : s.pop = .ok (b, t)) : t.RingInv := by
  have hqueue := State.queue_pop hpop h.head_lt
  have hsome := h.queue_isSome
  obtain rfl := State.eq_popped_of_pop hpop
  obtain ⟨hwf, -, hmem, hbelow, -⟩ := id h
  rw [hqueue] at hsome
  exact State.ringInv_of_queue hwf h.head_lt (s.nextIndex_lt _) hmem hbelow (List.forall_mem_cons.1 hsome).2

/-- A byte that is queued can be popped (R56). -/
theorem State.RingInv.pop_completes {s : State} (h : s.RingInv) (hne : s.head ≠ s.tail) :
    ∃ b, s.pop = .ok (b, s.popped) := by
  have hcount : 0 < s.count := Nat.pos_of_ne_zero fun hzero =>
    hne (s.isEmpty_iff.1 ((s.isEmpty_iff_count h.head_lt h.tail_lt).2 hzero))
  obtain ⟨b, hb⟩ := Option.isSome_iff_exists.1 (s.slots_isSome_iff.2 h.queue_isSome 0 hcount)
  rw [State.slot_zero h.tail_lt] at hb
  exact ⟨b, s.pop_eq b hne h.tail_lt hb⟩

/-! ## The statements about the queue -/

/-- Settles O35: the push and the pop at work on the queue and on the occupancy. -/
theorem ringIsAFifoQueue : Obligations.RingIsAFifoQueue := by
  unfold Obligations.RingIsAFifoQueue
  refine ⟨fun s b hinv hroom => ?_, fun s hinv hbyte => ?_⟩
  · have hring := hinv.ringInv
    obtain ⟨t, hpush⟩ := s.push_completes b hring.head_lt
    refine ⟨t, ?_, State.queue_push hpush hroom hring.tail_lt, State.count_push hpush hroom hring.tail_lt⟩
    rw [exec_rbPush, hpush, outcomeOf]
  · have hring := hinv.ringInv
    have hne : s.head ≠ s.tail := mt s.isEmpty_iff.2 (by simp [hbyte])
    obtain ⟨b, hpop⟩ := hring.pop_completes hne
    have hqueue := State.queue_pop hpop hring.head_lt
    have hcount := State.count_pop hpop hring.head_lt
    exact ⟨_, b, exec_rbPop_of_ok hpop, hqueue, rfl, hcount.symm⟩

/-- Operations one after the other. -/
theorem runAll_cons {s t : State} {i : Instr} (h : exec i s = .next t) (is : List Instr) :
    runAll (i :: is) s = runAll is t := by
  simp only [runAll, h]

/-- Pushes fill what room there is, in order, and drop the rest. -/
theorem runAll_rbPush (bs : List Byte) : ∀ s : State, s.RingInv →
    ∃ t, runAll (bs.map .rbPush) s = .next t ∧
      t.queue = s.queue ++ (bs.take (s.cfg.C - 1 - s.count)).map some ∧ t.tail = s.tail := by
  induction bs with
  | nil => exact fun s _ => ⟨s, rfl, by simp, rfl⟩
  | cons b bs ih =>
    intro s hring
    obtain ⟨u, hpush⟩ := s.push_completes b hring.head_lt
    have hexec : exec (.rbPush b) s = .next u := by rw [exec_rbPush, hpush, outcomeOf]
    obtain ⟨t, hrun, hqueue, htail⟩ := ih u (hring.push hpush)
    refine ⟨t, (runAll_cons hexec _).trans hrun, ?_⟩
    have hfull := s.isFull_iff_count hring.head_lt hring.tail_lt
    cases hroom : s.isFull with
    | true =>
      obtain ⟨-, rfl⟩ | ⟨hnot, -⟩ := s.push_ok u b hpush
      · have hnone : u.cfg.C - 1 - u.count = 0 := by have := hfull.1 hroom; omega
        rw [hnone, List.take_zero] at hqueue ⊢
        exact ⟨hqueue, htail⟩
      · simp [hroom] at hnot
    | false =>
      have hcount := State.count_push hpush hroom hring.tail_lt
      rw [State.queue_push hpush hroom hring.tail_lt, hcount] at hqueue
      obtain ⟨-, rfl⟩ := State.push_stores hpush hroom
      have hlt : s.count + 1 < s.cfg.C :=
        lt_of_le_of_ne s.count_lt fun heq => by simp [hfull.2 heq] at hroom
      have hplace : s.cfg.C - 1 - s.count = s.cfg.C - 1 - (s.count + 1) + 1 := by omega
      rw [hplace, List.take_succ_cons, List.map_cons, hqueue, List.append_assoc]
      exact ⟨rfl, htail⟩

/-- Settles O36: on the empty buffer there is room for `C - 1` bytes. -/
theorem pushesFillTheRingThenDrop : Obligations.PushesFillTheRingThenDrop := by
  unfold Obligations.PushesFillTheRingThenDrop
  intro s bs hinv hempty
  obtain ⟨t, hrun, hqueue, htail⟩ := runAll_rbPush bs s hinv.ringInv
  have hcount : s.count = 0 := State.count_of_head_eq_tail (s.isEmpty_iff.1 hempty)
  have hnone : s.queue = [] := List.eq_nil_of_length_eq_zero (s.length_queue.trans hcount)
  rw [hnone, hcount] at hqueue
  exact ⟨t, hrun, hqueue, htail⟩

end Sys2Proof.Machine

/-! The translator over the queue (43_scan_translator.md): the rows of the five classes, what one iteration writes, and
the loop of NEXT_CHAR against the source's six steps. -/

namespace Sys2Proof.Machine

open Sys2Proof

/-! ## The handling of a CODE byte, and the rows -/

theorem handleByte_lookupExt {s : State} {b : Byte} (hExt : b ≠ 0xE0#8) (hBrk : b ≠ 0xF0#8) (hbrk : s.brk = false)
    (hext : s.ext = true) : handleByte b s = s.lookupExt b := by
  rw [handleByte, if_neg hExt, if_neg hBrk, if_neg (by simp [hbrk]), if_pos hext]

theorem handleByte_lookupNormal {s : State} {b : Byte} (hExt : b ≠ 0xE0#8) (hBrk : b ≠ 0xF0#8) (hbrk : s.brk = false)
    (hext : s.ext = false) : handleByte b s = s.lookupNormal b := by
  rw [handleByte, if_neg hExt, if_neg hBrk, if_neg (by simp [hbrk]), if_neg (by simp [hext])]

theorem codeResult_of_ne_zero {c : Byte} (h : c ≠ 0#8) : codeResult c = .done c := if_neg h

theorem exec_scanPrefixExt (s : State) : exec .scanPrefixExt s = returnXlt (.continues, s.setExt) := rfl

theorem exec_scanPrefixBrk (s : State) : exec .scanPrefixBrk s = returnXlt (.continues, s.setBrk) := rfl

theorem exec_scanCodeRelease {s : State} {c : Byte} (hcode : isCodeByte c = true) (hbrk : s.brk = true) :
    exec (.scanCodeRelease c) s = returnXlt (.continues, s.release) :=
  if_pos ⟨hcode, hbrk⟩

theorem exec_scanCodeNormal {s : State} {c : Byte} (hcode : isCodeByte c = true) (hbrk : s.brk = false)
    (hext : s.ext = false) : exec (.scanCodeNormal c) s = returnXlt (s.lookupNormal c) :=
  if_pos ⟨hcode, by rw [hbrk]; rfl, by rw [hext]; rfl⟩

/-- The row that a popped byte selects is the handling of that byte (R127, R129). -/
theorem exec_scanRow (b : Byte) (s : State) : exec (scanRow b s) s = returnXlt (handleByte b s) := by
  unfold scanRow
  split_ifs with hExt hBrk hbrk hext
  · rw [hExt, handleByte_prefixExt, exec_scanPrefixExt]
  · rw [hBrk, handleByte_prefixBrk, exec_scanPrefixBrk]
  · rw [handleByte_release hExt hBrk hbrk, exec_scanCodeRelease ((isCodeByte_iff b).2 ⟨hExt, hBrk⟩) hbrk]
  · have hclear : s.brk = false := Bool.eq_false_iff.2 hbrk
    rw [handleByte_lookupExt hExt hBrk hclear hext, exec_scanCodeExt ((isCodeByte_iff b).2 ⟨hExt, hBrk⟩) hclear hext]
  · have hclear : s.brk = false := Bool.eq_false_iff.2 hbrk
    have hnormal : s.ext = false := Bool.eq_false_iff.2 hext
    rw [handleByte_lookupNormal hExt hBrk hclear hnormal,
      exec_scanCodeNormal ((isCodeByte_iff b).2 ⟨hExt, hBrk⟩) hclear hnormal]

/-! ## One iteration -/

/-- The handling of a byte touches no index, no slot and nothing the ring's invariant speaks of. -/
theorem handleByte_ring (b : Byte) (s : State) :
    (handleByte b s).2.queue = s.queue ∧ (s.RingInv → (handleByte b s).2.RingInv) := by
  rw [handleByte_frame]
  exact ⟨rfl, fun h => h.congr rfl rfl rfl rfl⟩

/-- An iteration writes `tail` and the two flags only. -/
theorem State.xltStep_frame {s s' : State} {r : XltResult} (h : s.xltStep = .ok (r, s')) :
    s' = { s with tail := s'.tail, ext := s'.ext, brk := s'.brk } := by
  obtain ⟨-, -, rfl⟩ | ⟨-, b, s1, hpop, hbyte⟩ := s.xltStep_ok s' r h
  · rfl
  · obtain rfl := State.eq_popped_of_pop hpop
    have hframe : s' = { s.popped with ext := s'.ext, brk := s'.brk } := by
      have hwritten := handleByte_frame b s.popped
      rwa [hbyte] at hwritten
    have htail : s'.tail = s.popped.tail := by rw [hframe]
    rw [htail]
    exact hframe

/-- Where the invariant holds an iteration completes. -/
theorem State.RingInv.xltStep_completes {s : State} (h : s.RingInv) : ∃ r s', s.xltStep = .ok (r, s') := by
  by_cases hempty : s.head = s.tail
  · exact ⟨_, _, State.xltStep_of_count_eq_zero (State.count_of_head_eq_tail hempty)⟩
  · obtain ⟨b, hpop⟩ := h.pop_completes hempty
    exact ⟨_, _, State.xltStep_of_pop hpop h.head_lt⟩

/-- The first byte of the queue is the one an iteration handles. -/
theorem State.RingInv.xltStep_of_queue {s : State} {b : Byte} {q : List (Option Byte)} (h : s.RingInv)
    (hqueue : s.queue = some b :: q) :
    s.xltStep = .ok (handleByte b s.popped) ∧ (handleByte b s.popped).2.queue = q ∧
      (handleByte b s.popped).2.RingInv := by
  obtain ⟨hpop, hrest⟩ := State.pop_of_queue h.head_lt h.tail_lt hqueue
  obtain ⟨hqueue', hring⟩ := handleByte_ring b s.popped
  exact ⟨State.xltStep_of_pop hpop h.head_lt, hqueue'.trans hrest, hring (h.pop hpop)⟩

/-- An iteration that continues leaves the call next in the trace (R128). -/
theorem exec_nextChar_of_continues {s t : State} (h : s.xltStep = .ok (.continues, t)) :
    exec .nextChar s = .next { t with prog := encode .nextChar ++ t.prog } := by
  simp only [exec, execNextChar, h]

/-! ## The statements about one operation -/

/-- Settles O37: a byte is queued where the indices differ. -/
theorem availableTellsWhetherAByteIsQueued : Obligations.AvailableTellsWhetherAByteIsQueued := by
  unfold Obligations.AvailableTellsWhetherAByteIsQueued
  intro s hh ht
  have hcount : s.count ≠ 0 ↔ s.head ≠ s.tail :=
    not_congr ((s.isEmpty_iff_count hh ht).symm.trans s.isEmpty_iff)
  rw [exec_available, decide_eq_decide.2 hcount]
  rfl

/-- Settles O39. -/
theorem prefixBytesSetTheirFlag : Obligations.PrefixBytesSetTheirFlag := by
  unfold Obligations.PrefixBytesSetTheirFlag
  exact fun s => ⟨exec_scanPrefixExt s, exec_scanPrefixBrk s⟩

/-- Settles O40: no table is looked at. -/
theorem releaseCodeIsSuppressed : Obligations.ReleaseCodeIsSuppressed := by
  unfold Obligations.ReleaseCodeIsSuppressed
  intro s c hExt hBrk hbrk
  rw [exec_scanCodeRelease ((isCodeByte_iff c).2 ⟨hExt, hBrk⟩) hbrk, ← s.release_ext_eq]
  rfl

/-- Settles O42. -/
theorem normalCodeIsLookedUp : Obligations.NormalCodeIsLookedUp := by
  unfold Obligations.NormalCodeIsLookedUp
  intro s c hExt hBrk hbrk hext
  rw [exec_scanCodeNormal ((isCodeByte_iff c).2 ⟨hExt, hBrk⟩) hbrk hext, ← codeResult_ret]
  rfl

/-- Settles O43: the occupancy test fails, whichever of the two operations runs the iteration. -/
theorem emptyBufferGivesTheSentinel : Obligations.EmptyBufferGivesTheSentinel := by
  unfold Obligations.EmptyBufferGivesTheSentinel
  intro s hempty
  have hstep := State.xltStep_of_count_eq_zero (State.count_of_head_eq_tail hempty)
  exact ⟨exec_xltStep_of_ok hstep, exec_nextChar_of_done hstep⟩

/-- Settles O44: both are the handling of the popped byte. -/
theorem xltStepRunsTheSelectedRow : Obligations.XltStepRunsTheSelectedRow := by
  unfold Obligations.XltStepRunsTheSelectedRow
  rintro s b hh ht hne hread s1 rfl
  exact ⟨_, exec_xltStep_of_ok (State.xltStep_of_pop (s.pop_eq b hne ht hread) hh), exec_scanRow b _⟩

/-- Settles O46: the two operations run the same iteration and differ in what they make of its result. -/
theorem nextCharIsALoopOfXltSteps : Obligations.NextCharIsALoopOfXltSteps := by
  unfold Obligations.NextCharIsALoopOfXltSteps
  intro s hinv
  obtain ⟨r, s', hstep⟩ := hinv.ringInv.xltStep_completes
  have hframe := State.xltStep_frame hstep
  have hresults : s'.results = s.results := by rw [hframe]
  have hprog : s'.prog = s.prog := by rw [hframe]
  refine ⟨_, exec_xltStep_of_ok hstep, ?_⟩
  cases r with
  | done c =>
    left
    refine ⟨c, congrArg (Ret.done c :: ·) hresults, ?_⟩
    rw [exec_nextChar_of_done hstep, ← hresults]
    rfl
  | continues =>
    right
    refine ⟨congrArg (Ret.continues :: ·) hresults, ?_⟩
    rw [exec_nextChar_of_continues hstep, ← hresults, ← hprog]
    rfl

/-! ## Several iterations -/

/-- The handling of a byte reads the build and the flags only. -/
theorem handleByte_congr {s t : State} (hcfg : t.cfg = s.cfg) (hext : t.ext = s.ext) (hbrk : t.brk = s.brk) (b : Byte) :
    handleByte b t =
      ((handleByte b s).1, { t with ext := (handleByte b s).2.ext, brk := (handleByte b s).2.brk }) := by
  by_cases hExt : b = 0xE0#8
  · rw [hExt, handleByte_prefixExt, handleByte_prefixExt, State.setExt_brk, ← hbrk]
    rfl
  by_cases hBrk : b = 0xF0#8
  · rw [hBrk, handleByte_prefixBrk, handleByte_prefixBrk, State.setBrk_ext, ← hext]
    rfl
  cases hrelease : s.brk with
  | true =>
    rw [handleByte_release hExt hBrk hrelease, handleByte_release hExt hBrk (hbrk.trans hrelease), State.release_ext,
      ← hext, ← hcfg]
    rfl
  | false =>
    have hclear : t.brk = false := hbrk.trans hrelease
    cases hlook : s.ext with
    | true =>
      rw [handleByte_lookupExt hExt hBrk hrelease hlook, handleByte_lookupExt hExt hBrk hclear (hext.trans hlook)]
      simp only [State.lookupExt, ← hcfg, ← hbrk]
    | false =>
      rw [handleByte_lookupNormal hExt hBrk hrelease hlook, handleByte_lookupNormal hExt hBrk hclear (hext.trans hlook)]
      simp only [State.lookupNormal, ← hcfg, ← hbrk, ← hext]

/-- XLT_STEP on a queue whose first byte is known: what it returns and what it leaves. -/
theorem State.RingInv.exec_xltStep_of_queue {s : State} {b : Byte} {q : List (Option Byte)} (h : s.RingInv)
    (hqueue : s.queue = some b :: q) :
    ∃ t, exec .xltStep s = .next t ∧ t.queue = q ∧ t.RingInv ∧ t.cfg = s.cfg ∧
      t.results = (handleByte b s).1.ret :: s.results ∧ t.ext = (handleByte b s).2.ext ∧
      t.brk = (handleByte b s).2.brk := by
  obtain ⟨hstep, hrest, hring⟩ := h.xltStep_of_queue hqueue
  rw [handleByte_congr (s := s) (t := s.popped) rfl rfl rfl] at hstep hrest hring
  exact ⟨_, exec_xltStep_of_ok hstep, hrest, hring.congr rfl rfl rfl rfl, rfl, rfl, rfl, rfl⟩

/-- Settles O48: the first byte sets `ext`, the second sets `brk`, the third is suppressed. -/
theorem extendedReleaseKeepsExtByBuild : Obligations.ExtendedReleaseKeepsExtByBuild := by
  unfold Obligations.ExtendedReleaseKeepsExtByBuild
  intro s c q hinv hExt hBrk _ _ hqueue
  obtain ⟨s1, hstep1, hqueue1, hring1, hcfg1, hresults1, hext1, -⟩ := hinv.ringInv.exec_xltStep_of_queue hqueue
  obtain ⟨s2, hstep2, hqueue2, hring2, hcfg2, hresults2, hext2, hbrk2⟩ := hring1.exec_xltStep_of_queue hqueue1
  obtain ⟨s3, hstep3, hqueue3, -, -, hresults3, hext3, hbrk3⟩ := hring2.exec_xltStep_of_queue hqueue2
  rw [handleByte_prefixExt] at hresults1 hext1
  rw [handleByte_prefixBrk] at hresults2 hext2 hbrk2
  rw [handleByte_release hExt hBrk hbrk2] at hresults3 hext3 hbrk3
  refine ⟨s3, (runAll_cons hstep1 _).trans ((runAll_cons hstep2 _).trans (runAll_cons hstep3 [])), ?_, hbrk3, hqueue3,
    ?_⟩
  · rw [hext3, State.release_ext_eq, hcfg2, hcfg1, hext2, State.setBrk_ext, hext1, State.setExt_ext, Bool.true_and]
  · rw [hresults3, hresults2, hresults1]
    rfl

/-- A code in the low or the high range is not the sentinel. -/
theorem ne_zero_of_le_toNat {c : Byte} {n : Nat} (h : n ≤ c.toNat) (hn : 0 < n) : c ≠ 0#8 := by
  rintro rfl
  exact absurd (hn.trans_le h) (lt_irrefl 0)

/-- Settles O49: the premise on the tables makes both results Done. -/
theorem mappedKeysGiveTheirCode : Obligations.MappedKeysGiveTheirCode := by
  unfold Obligations.MappedKeysGiveTheirCode
  rintro s q hinv ⟨⟨hlow, -⟩, hhigh⟩ hext hbrk
  have hnormal : lookup s.cfg.lutN 0x1C#8 ≠ 0#8 := ne_zero_of_le_toNat hlow (by decide)
  have hextended : lookup s.cfg.lutE 0x75#8 ≠ 0#8 := ne_zero_of_le_toNat hhigh (by decide)
  refine ⟨fun hqueue => ?_, fun hqueue => ?_⟩
  · obtain ⟨hstep, hrest, -⟩ := hinv.ringInv.xltStep_of_queue hqueue
    have hbyte : handleByte 0x1C#8 s.popped = (.done (lookup s.cfg.lutN 0x1C#8), s.popped) := by
      rw [← codeResult_of_ne_zero hnormal]
      exact handleByte_lookupNormal (by decide) (by decide) hbrk hext
    rw [hbyte] at hstep hrest
    exact ⟨_, exec_nextChar_of_done hstep, hrest, rfl, hext, hbrk, hnormal⟩
  · obtain ⟨s1, hstep1, hqueue1, hring1, hcfg1, hresults1, hext1, hbrk1⟩ := hinv.ringInv.exec_xltStep_of_queue hqueue
    obtain ⟨s2, hstep2, hrest, -, -, hresults2, hext2, hbrk2⟩ := hring1.exec_xltStep_of_queue hqueue1
    rw [handleByte_prefixExt] at hresults1 hext1 hbrk1
    have hclear : s1.brk = false := hbrk1.trans hbrk
    rw [handleByte_lookupExt (by decide) (by decide) hclear hext1, State.lookupExt, hcfg1] at hresults2 hext2 hbrk2
    rw [codeResult_of_ne_zero hextended, hresults1] at hresults2
    exact ⟨s2, (runAll_cons hstep1 _).trans (runAll_cons hstep2 []), hrest, hresults2, hext2, hbrk2.trans hclear,
      hextended⟩

/-! ## The loop of NEXT_CHAR as a function of the queue (R127, R128) -/

/-- The source's steps on a queue are the handling of its first byte and, after Continue, the steps on the rest. -/
theorem pull_cons (s : State) (b : Byte) (q : List Byte) :
    pull s.cfg s.ext s.brk (b :: q) =
      match handleByte b s with
      | (.continues, t) => pull s.cfg t.ext t.brk q
      | (.done c, t) => (c, t.ext, t.brk, q) := by
  rw [pull]
  split_ifs with hExt hBrk hbrk hext
  · rw [hExt, handleByte_prefixExt]; rfl
  · rw [hBrk, handleByte_prefixBrk]; rfl
  · rw [handleByte_release hExt hBrk hbrk, ← s.release_ext_eq]; rfl
  · have hclear : s.brk = false := Bool.eq_false_iff.2 hbrk
    rw [handleByte_lookupExt hExt hBrk hclear hext, State.lookupExt]
    by_cases hzero : lookup s.cfg.lutE b = 0#8
    · simp [codeResult, hzero, hclear]
    · simp [codeResult, hzero, hclear]
  · have hclear : s.brk = false := Bool.eq_false_iff.2 hbrk
    have hnormal : s.ext = false := Bool.eq_false_iff.2 hext
    rw [handleByte_lookupNormal hExt hBrk hclear hnormal, State.lookupNormal]
    by_cases hzero : lookup s.cfg.lutN b = 0#8
    · simp [codeResult, hzero, hclear, hnormal]
    · simp [codeResult, hzero, hclear, hnormal]

/-- One step of a call that is next in the trace, with no edge event before it. -/
theorem step_nextChar {s : State} {rest : List Byte} (henv : s.env = []) (hprog : s.prog = encode .nextChar ++ rest) :
    step s = exec .nextChar { s with prog := rest } := by
  have hdecode : decode s.prog = .ok (.nextChar, rest) := by rw [hprog]; rfl
  have hstep := stepRunsTheDecodedInstruction s .nextChar rest [] (.inl ⟨henv, rfl⟩) hdecode
  rwa [← henv] at hstep

theorem run_succ {s t : State} (h : step s = .next t) (k : Nat) :
    Host.Core.run core (k + 1) s = Host.Core.run core k t := by
  have hstep : core.step s = .next t := h
  simp only [Host.Core.run, hstep]

/-- The call ends in `t`: the returned code, the two flags and the queued bytes are those of `p`, the trace goes on with
`rest`, and nothing else but `tail` is written. -/
def State.CallEndsIn (s t : State) (p : Byte × Bool × Bool × List Byte) (rest : List Byte) : Prop :=
  t.results = .char p.1 :: s.results ∧ t.ext = p.2.1 ∧ t.brk = p.2.2.1 ∧ t.queue = p.2.2.2.map some ∧
    t = { s with prog := rest, results := t.results, ext := t.ext, brk := t.brk, tail := t.tail }

/-- An uninterrupted call takes at most one step for each queued byte and one for the empty queue, by induction on the
queue. -/
theorem run_nextChar (q rest : List Byte) : ∀ s : State, s.RingInv → s.env = [] → s.prog = encode .nextChar ++ rest →
    s.queue = q.map some →
    ∃ k t, 1 ≤ k ∧ k ≤ q.length + 1 ∧ Host.Core.run core k s = .next t ∧
      s.CallEndsIn t (pull s.cfg s.ext s.brk q) rest := by
  induction q with
  | nil =>
    intro s hring henv hprog hqueue
    have hcount : s.count = 0 := by rw [← s.length_queue, hqueue]; rfl
    have hstep := (step_nextChar henv hprog).trans
      (exec_nextChar_of_done (s := { s with prog := rest }) (State.xltStep_of_count_eq_zero hcount))
    exact ⟨1, _, le_rfl, le_rfl, run_succ hstep 0, rfl, rfl, rfl, hqueue, rfl⟩
  | cons b q ih =>
    intro s hring henv hprog hqueue
    have hring' : State.RingInv { s with prog := rest } := hring.congr rfl rfl rfl rfl
    obtain ⟨hxlt, hrest, hringRest⟩ := hring'.xltStep_of_queue hqueue
    have hpull := pull_cons (State.popped { s with prog := rest }) b q
    generalize handleByte b (State.popped { s with prog := rest }) = handled at hxlt hrest hringRest hpull
    obtain ⟨r, u⟩ := handled
    have hframe := State.xltStep_frame hxlt
    have hresults : u.results = s.results := by rw [hframe]
    cases r with
    | done c =>
      have hpull : pull s.cfg s.ext s.brk (b :: q) = (c, u.ext, u.brk, q) := hpull
      have hstep := (step_nextChar henv hprog).trans (exec_nextChar_of_done hxlt)
      rw [hpull]
      refine ⟨1, _, le_rfl, Nat.succ_le_succ (Nat.zero_le _), run_succ hstep 0, ?_, rfl, rfl, hrest, ?_⟩
      · exact congrArg (Ret.char c :: ·) hresults
      · rw [hframe]
        rfl
    | continues =>
      have hpull : pull s.cfg s.ext s.brk (b :: q) = pull u.cfg u.ext u.brk q := by
        rw [show u.cfg = s.cfg by rw [hframe]]
        exact hpull
      have hstep := (step_nextChar henv hprog).trans (exec_nextChar_of_continues hxlt)
      have hringNext := hringRest.congr (t := { u with prog := encode .nextChar ++ u.prog }) rfl rfl rfl rfl
      obtain ⟨k, t, -, hle, hrun, hcode, hext, hbrk, hleft, hend⟩ :=
        ih _ hringNext (by rw [hframe]; exact henv) (by rw [hframe]) hrest
      rw [hpull]
      refine ⟨k + 1, t, Nat.succ_pos k, Nat.succ_le_succ hle, (run_succ hstep k).trans hrun,
        hcode.trans (congrArg _ hresults), hext, hbrk, hleft, ?_⟩
      rw [hframe] at hend
      exact hend

/-- Settles O47: the queue holds the bytes of `q`, so there are `count` of them. -/
theorem nextCharTranslatesTheQueue : Obligations.NextCharTranslatesTheQueue := by
  unfold Obligations.NextCharTranslatesTheQueue
  intro s q rest hinv henv hprog hqueue
  have hcount : q.length = s.count := by rw [← s.length_queue, hqueue, List.length_map]
  obtain ⟨k, t, hpos, hle, hrun, hresults, hext, hbrk, hleft, hframe⟩ :=
    run_nextChar q rest s hinv.ringInv henv hprog hqueue
  rw [hcount] at hle
  exact ⟨k, t, hpos, hle, s.count_lt, hrun, by rw [hresults, hext, hbrk, hleft], hframe⟩

end Sys2Proof.Machine

/-! The frame decoder under the invariant (41_frame_decoder.md sections 5 and 6): what an edge may write, the partial
frame (10_state.md R33), the way back to Idle, rejected frames and the FRAME word. -/

namespace Sys2Proof.Machine

open Sys2Proof

/-! ## What an edge may write -/

/-- Nothing but the decoder's registers differs (R105). -/
def DecoderOnly (s t : State) : Prop := t = s.withDecoder t.st t.acc t.idx t.par t.tLast

theorem DecoderOnly.refl (s : State) : DecoderOnly s s := rfl

theorem DecoderOnly.trans {s t u : State} (h : DecoderOnly s t) (h' : DecoderOnly t u) : DecoderOnly s u :=
  Eq.trans h' (congrArg (fun x => x.withDecoder u.st u.acc u.idx u.par u.tLast) h)

theorem DecoderOnly.precheck (s : State) (now : Nat) : DecoderOnly s (s.precheck now) := by
  rw [s.precheck_eq]
  rfl

/-- An edge's state case writes the decoder's registers, and in Stop it may push. -/
theorem edgeCase_effect {d : Bool} {s t : State} (h : edgeCase d s = .next t) :
    DecoderOnly s t ∨ s.st = .stop ∧ ∃ u, s.push s.acc = .ok u ∧ t = u.resync := by
  obtain ⟨-, -, rfl⟩ | ⟨-, -, rfl⟩ | ⟨-, rfl⟩ | ⟨-, -, rfl⟩ | ⟨-, -, rfl⟩ | ⟨-, -, rfl⟩ | ⟨hstop, -, hpush⟩ :=
    edgeCase_next d s t h
  · exact .inl rfl
  · exact .inl rfl
  · exact .inl rfl
  · exact .inl rfl
  · exact .inl rfl
  · exact .inl rfl
  · exact .inr ⟨hstop, hpush⟩

theorem DecoderOnly.ringInv {s t : State} (h : DecoderOnly s t) (hring : s.RingInv) : t.RingInv :=
  hring.congr (by rw [h]; rfl) (by rw [h]; rfl) (by rw [h]; rfl) (by rw [h]; rfl)

/-! ## The partial frame (R33) -/

theorem State.frameInv_of_idle {s : State} (h : s.st = .idle) : s.FrameInv :=
  ⟨fun hdata => by simp [h] at hdata, fun hlate => by simp [h] at hlate, fun hbusy => absurd h hbusy⟩

/-- The parity accumulator looks at the bits below `n` only. -/
theorem runParity_congr {v w : Byte} (n : Nat) (h : ∀ j, j < n → v.getLsbD j = w.getLsbD j) :
    runParity v n = runParity w n := by
  induction n with
  | zero => rfl
  | succ n ih =>
    rw [runParity, runParity, ih fun j hj => h j (Nat.lt_succ_of_lt hj), h n (Nat.lt_succ_self n)]

/-- The parity accumulator takes in the bit that is written (R95). -/
theorem runParity_writeBit (v : Byte) (i : BitVec 4) (d : Bool) (hi : i.toNat < 8) :
    runParity (writeBit v i d) (i.toNat + 1) = (runParity v i.toNat ^^ d) := by
  have hbelow : runParity (writeBit v i d) i.toNat = runParity v i.toNat :=
    runParity_congr _ fun j hj => by rw [getLsbD_writeBit v i d j (hj.trans hi), if_neg hj.ne]
  rw [runParity, hbelow, getLsbD_writeBit v i d _ hi, if_pos rfl]

/-- A data bit keeps R33, the eighth one on its way to Parity. -/
theorem State.FrameInv.shiftIn {s : State} (h : s.FrameInv) (hdata : s.st = .data) (d : Bool) :
    (s.shiftIn d).FrameInv := by
  obtain ⟨hidx, -, hpartial⟩ := h
  have hle : s.idx.toNat ≤ 7 := hidx hdata
  obtain ⟨hclear, hpar⟩ := hpartial (by simp [hdata])
  have hnext : (s.idx + 1#4).toNat = s.idx.toNat + 1 := toNat_idx_succ s.idx hle
  have hlast : s.idx + 1#4 = 8#4 ↔ s.idx.toNat + 1 = 8 := by
    rw [BitVec.toNat_eq, hnext]
    rfl
  refine ⟨fun hst => ?_, fun hst => ?_, fun _ => ⟨fun j hj hge => ?_, ?_⟩⟩
  · rw [State.shiftIn_st] at hst
    split at hst
    · cases hst
    · next hmore =>
      rw [State.shiftIn_idx, hnext]
      rw [hlast] at hmore
      omega
  · rw [State.shiftIn_st, hdata] at hst
    split at hst
    · next hend => exact hend
    · simp at hst
  · rw [State.shiftIn_idx, hnext] at hge
    rw [State.shiftIn_acc, getLsbD_writeBit s.acc s.idx d j hj, if_neg (by omega)]
    exact hclear j hj (by omega)
  · rw [State.shiftIn_par, State.shiftIn_acc, State.shiftIn_idx, hnext, runParity_writeBit _ _ _ (by omega), ← hpar]
    rfl

/-- From Parity to Stop the partial frame is whole and stays. -/
theorem State.FrameInv.toStop {s : State} (h : s.FrameInv) (hparity : s.st = .parity) : s.toStop.FrameInv := by
  obtain ⟨-, hwhole, hpartial⟩ := h
  exact ⟨(nomatch ·), fun _ => hwhole (.inl hparity), fun _ => hpartial (by simp [hparity])⟩

theorem State.frameInv_startFrame (s : State) : s.startFrame.FrameInv :=
  ⟨fun _ => Nat.zero_le 7, fun hlate => by simp at hlate, fun _ => ⟨fun j _ _ => by simp, rfl⟩⟩

/-! ## An edge keeps the invariant -/

/-- The time stamp and the timeout keep the invariant. -/
theorem State.Inv.precheck {s : State} (h : s.Inv) (now : Nat) : (s.precheck now).Inv := by
  obtain ⟨hring, hframe, -⟩ := s.inv_iff.1 h
  refine (State.inv_iff _).2 ⟨(DecoderOnly.precheck s now).ringInv hring, ?_, ?_⟩
  · rw [s.precheck_eq]
    split
    · exact State.frameInv_of_idle rfl
    · exact hframe
  · rw [State.precheck_tLast, State.precheck_cfg]
    exact Nat.mod_lt _ (period_pos s.cfg)

/-- A state whose decoder is Idle meets the invariant with its ring and its time. -/
theorem State.inv_of_idle {s : State} (hring : s.RingInv) (hidle : s.st = .idle) (htime : s.tLast < s.cfg.period) :
    s.Inv :=
  s.inv_iff.2 ⟨hring, State.frameInv_of_idle hidle, htime⟩

/-- A push writes the ring only. -/
theorem State.push_frame {s t : State} {b : Byte} (h : s.push b = .ok t) :
    t = { s with head := t.head, buf := t.buf } := by
  obtain ⟨-, rfl⟩ | ⟨-, -, rfl⟩ := s.push_ok t b h
  · rfl
  · rfl

theorem State.Inv.push {s t : State} {b : Byte} (h : s.Inv) (hpush : s.push b = .ok t) : t.Inv := by
  obtain ⟨hring, hframe, htime⟩ := s.inv_iff.1 h
  have hring' := hring.push hpush
  have heq := State.push_frame hpush
  refine t.inv_iff.2 ⟨hring', ?_, ?_⟩
  · rw [heq]
    exact hframe
  · rw [heq]
    exact htime

theorem State.Inv.resync {s : State} (h : s.Inv) : s.resync.Inv := by
  obtain ⟨hring, -, htime⟩ := s.inv_iff.1 h
  exact State.inv_of_idle (hring.congr rfl rfl rfl rfl) rfl htime

theorem State.Inv.edgeCase {s t : State} {d : Bool} (h : s.Inv) (hcase : edgeCase d s = .next t) : t.Inv := by
  obtain ⟨hring, hframe, htime⟩ := s.inv_iff.1 h
  obtain ⟨-, -, rfl⟩ | ⟨-, -, rfl⟩ | ⟨hdata, rfl⟩ | ⟨hparity, -, rfl⟩ | ⟨-, -, rfl⟩ | ⟨-, -, rfl⟩ |
    ⟨-, -, u, hpush, rfl⟩ := edgeCase_next d s t hcase
  · exact h
  · exact (State.inv_iff _).2 ⟨hring.congr rfl rfl rfl rfl, s.frameInv_startFrame, htime⟩
  · exact (State.inv_iff _).2 ⟨hring.congr rfl rfl rfl rfl, hframe.shiftIn hdata d, htime⟩
  · exact (State.inv_iff _).2 ⟨hring.congr rfl rfl rfl rfl, hframe.toStop hparity, htime⟩
  · exact h.resync
  · exact h.resync
  · exact (h.push hpush).resync

/-- An edge that completes is gated, or it is its state case. -/
theorem execEdge_next {d : Bool} {now : Nat} {s t : State} (h : execEdge d now s = .next t) :
    t = s ∨ edgeCase d (s.precheck now) = .next t := by
  cases hen : s.en with
  | false =>
    rw [execEdge_gated d now s hen] at h
    exact .inl (Host.Outcome.next.inj h).symm
  | true =>
    rw [execEdge_delivered d now s hen] at h
    exact .inr h

theorem State.Inv.execEdge {s t : State} {d : Bool} {now : Nat} (h : s.Inv) (hedge : execEdge d now s = .next t) :
    t.Inv := by
  obtain rfl | hcase := execEdge_next hedge
  · exact h
  · exact (h.precheck now).edgeCase hcase

/-- On a slot address that exists an edge completes. -/
theorem execEdge_completes {s : State} (h : s.head < s.cfg.C) (d : Bool) (now : Nat) :
    ∃ t, execEdge d now s = .next t := by
  cases hen : s.en with
  | false => exact ⟨s, execEdge_gated d now s hen⟩
  | true =>
    rw [execEdge_delivered d now s hen]
    exact edgeCase_completes d _ (by rwa [State.precheck_head, State.precheck_cfg])

/-- Any number of edges completes, and the invariant holds after them. -/
theorem runEdges_completes (es : List EdgeEvent) : ∀ s : State, s.Inv → ∃ t, runEdges es s = .next t ∧ t.Inv := by
  induction es with
  | nil => exact fun s h => ⟨s, rfl, h⟩
  | cons e es ih =>
    intro s h
    obtain ⟨u, hedge⟩ := execEdge_completes h.ringInv.head_lt e.d e.now
    obtain ⟨t, hrun, ht⟩ := ih u (h.execEdge hedge)
    exact ⟨t, (runEdges_cons hedge es).trans hrun, ht⟩

/-! ## The way back to Idle (R102) -/

/-- Nothing but the decoder's registers and the ring's filling end differs (00_scope.md R10). -/
def ProducerOnly (s t : State) : Prop :=
  t = { s with st := t.st, acc := t.acc, idx := t.idx, par := t.par, tLast := t.tLast, head := t.head, buf := t.buf }

theorem ProducerOnly.trans {s t u : State} (h : ProducerOnly s t) (h' : ProducerOnly t u) : ProducerOnly s u := by
  rw [ProducerOnly] at h'
  rw [h] at h'
  exact h'

theorem DecoderOnly.producerOnly {s t : State} (h : DecoderOnly s t) : ProducerOnly s t := by
  rw [h]
  rfl

theorem ProducerOnly.of_push {s t : State} {b : Byte} (h : s.push b = .ok t) : ProducerOnly s t := by
  rw [State.push_frame h]
  rfl

theorem edgeCase_producerOnly {d : Bool} {s t : State} (h : edgeCase d s = .next t) : ProducerOnly s t := by
  obtain hdecoder | ⟨-, u, hpush, rfl⟩ := edgeCase_effect h
  · exact hdecoder.producerOnly
  · exact (ProducerOnly.of_push hpush).trans rfl

theorem execEdge_producerOnly {d : Bool} {now : Nat} {s t : State} (h : execEdge d now s = .next t) :
    ProducerOnly s t := by
  obtain rfl | hcase := execEdge_next h
  · rfl
  · exact (DecoderOnly.precheck s now).producerOnly.trans (edgeCase_producerOnly hcase)

theorem State.edgesLeft_le (s : State) : s.edgesLeft ≤ 10 := by
  unfold State.edgesLeft
  split <;> omega

theorem State.edgesLeft_pos {s : State} (h : s.FrameInv) (hbusy : s.st ≠ .idle) : 0 < s.edgesLeft := by
  unfold State.edgesLeft
  split
  · next hidle => exact absurd hidle hbusy
  · next hdata => have := h.1 hdata; omega
  · omega
  · omega

/-- Inside a frame a state case ends the frame or leaves one edge less to come. -/
theorem edgeCase_edgesLeft {d : Bool} {s t : State} (hframe : s.FrameInv) (hbusy : s.st ≠ .idle)
    (h : edgeCase d s = .next t) : t.st = .idle ∨ t.edgesLeft + 1 = s.edgesLeft := by
  obtain ⟨hidle, -⟩ | ⟨hidle, -⟩ | ⟨hdata, rfl⟩ | ⟨hparity, -, rfl⟩ | ⟨-, -, rfl⟩ | ⟨-, -, rfl⟩ |
    ⟨-, -, u, -, rfl⟩ := edgeCase_next d s t h
  · exact absurd hidle hbusy
  · exact absurd hidle hbusy
  · right
    have hle := hframe.1 hdata
    have hnext := toNat_idx_succ s.idx hle
    by_cases hlast : s.idx + 1#4 = 8#4
    · have height : s.idx.toNat + 1 = 8 := by rw [← hnext, hlast]; rfl
      simp only [State.edgesLeft, State.shiftIn_st, if_pos hlast, hdata]
      omega
    · simp only [State.edgesLeft, State.shiftIn_st, if_neg hlast, hdata, State.shiftIn_idx, hnext]
      omega
  · right
    simp only [State.edgesLeft, State.toStop_st, hparity]
  · exact .inl rfl
  · exact .inl rfl
  · exact .inl rfl

/-- The same for a delivered edge in time. -/
theorem execEdge_edgesLeft {d : Bool} {now : Nat} {s t : State} (hframe : s.FrameInv) (hbusy : s.st ≠ .idle)
    (hen : s.en = true) (hin : ¬ s.timedOut now = true) (h : execEdge d now s = .next t) :
    t.st = .idle ∨ t.edgesLeft + 1 = s.edgesLeft := by
  have hpre : s.precheck now = { s with tLast := now % s.cfg.period } := by rw [s.precheck_eq, if_neg hin]
  rw [execEdge_delivered d now s hen, hpre] at h
  exact edgeCase_edgesLeft (s := { s with tLast := now % s.cfg.period }) hframe hbusy h

/-- Settles O25, by induction on the edges: each one in time ends the frame or brings its end one edge nearer. -/
theorem decoderReturnsToIdleWithinOneFrame : Obligations.DecoderReturnsToIdleWithinOneFrame := by
  unfold Obligations.DecoderReturnsToIdleWithinOneFrame
  intro s es hinv hen hbusy hlen
  refine ⟨s.edgesLeft_le, ?_⟩
  induction es generalizing s with
  | nil => exact absurd hlen (State.edgesLeft_pos hinv.frameInv hbusy).not_ge
  | cons e es ih =>
    have hpos : 0 < s.edgesLeft := State.edgesLeft_pos hinv.frameInv hbusy
    by_cases hlate : s.timedOut e.now = true
    · exact ⟨0, s, e, hpos, rfl, rfl, .inl hlate⟩
    · obtain ⟨u, hedge⟩ := execEdge_completes hinv.ringInv.head_lt e.d e.now
      by_cases hidle : u.st = .idle
      · exact ⟨0, s, e, hpos, rfl, rfl, .inr ⟨u, hedge, hidle⟩⟩
      · have hnear := (execEdge_edgesLeft hinv.frameInv hbusy hen hlate hedge).resolve_left hidle
        have henU : u.en = true := by rw [execEdge_producerOnly hedge]; exact hen
        rw [List.length_cons] at hlen
        obtain ⟨k, t, e', hk, hget, hrun, hend⟩ := ih u (hinv.execEdge hedge) henU hidle (by omega)
        exact ⟨k + 1, t, e', by omega, hget, (runEdges_cons hedge _).trans hrun, hend⟩

/-! ## A whole wire, accepted or rejected -/

/-- Eleven edges in time from a start bit on: behind the data bits the parity bit and the stop bit are left. -/
theorem runEdges_wire {s : State} {b : Byte} {p q : Bool} {e : EdgeEvent} {es : List EdgeEvent} (hen : s.en = true)
    (hidle : s.st = .idle) (hlevels : (e :: es).map EdgeEvent.d = wireLevels b p q)
    (hin : inTime s.cfg (e.now % s.cfg.period) es) :
    ∃ last eParity eStop, es.drop 8 = [eParity, eStop] ∧ eParity.d = p ∧ eStop.d = q ∧
      inTime s.cfg last [eParity, eStop] ∧
      runEdges (e :: es) s = runEdges [eParity, eStop] (s.received b 8 last) := by
  obtain ⟨hstartBit, hrest⟩ := List.cons.inj hlevels
  obtain ⟨last, hin', hrun⟩ := runEdges_dataBits b hen [p, q] 8 0 _ es rfl hrest hin
  have hlast : (es.drop 8).map EdgeEvent.d = [p, q] := by
    rw [List.map_drop, hrest]
    rfl
  obtain ⟨eParity, fs, hdrop, hp, hfs⟩ := List.map_eq_cons_iff.1 hlast
  obtain ⟨eStop, gs, rfl, hq, hgs⟩ := List.map_eq_cons_iff.1 hfs
  obtain rfl := List.map_eq_nil_iff.1 hgs
  have hstartEdge := execEdge_startBit b e.now hen (.inl hidle)
  rw [← hstartBit] at hstartEdge
  rw [hdrop] at hin' hrun
  exact ⟨last, eParity, eStop, hdrop, hp, hq, hin', (runEdges_cons hstartEdge es).trans hrun⟩

/-- Behind the start bit nothing is received yet (R93). -/
theorem State.received_zero (s : State) (b : Byte) (last : Nat) :
    s.received b 0 last = s.withDecoder .data 0#8 0#4 true last := by
  rw [State.received, lowBits_zero]
  rfl

/-- A wrong parity bit discards the byte, and the stop bit is then an edge in Idle (R98, R104). -/
theorem runEdges_wrongParity {s : State} {b : Byte} {last : Nat} {eParity eStop : EdgeEvent} (hen : s.en = true)
    (hwrong : eParity.d ≠ parityBit b) (hin : inTime s.cfg last [eParity, eStop]) :
    runEdges [eParity, eStop] (s.received b 8 last) = .next
      (if eStop.d then (s.received b 8 (eStop.now % s.cfg.period)).resync
       else s.received b 0 (eStop.now % s.cfg.period)) := by
  have hparityEdge := execEdge_parityBit b eParity.now hen hin.1 eParity.d
  rw [if_neg hwrong] at hparityEdge
  have hstopEdge := execEdge_of_idle_or_timeout eStop.d eStop.now
    (s.received b 8 (eParity.now % s.cfg.period)).resync hen (.inl rfl)
  rw [runEdges_cons hparityEdge, runEdges_cons hstopEdge]
  cases eStop.d with
  | true => rfl
  | false =>
    rw [State.received_zero]
    rfl

/-- A stop bit 0 discards the byte (R100). -/
theorem runEdges_badStop {s : State} {b : Byte} {last : Nat} {eParity eStop : EdgeEvent} (hen : s.en = true)
    (hright : eParity.d = parityBit b) (hbad : eStop.d = false) (hin : inTime s.cfg last [eParity, eStop]) :
    runEdges [eParity, eStop] (s.received b 8 last) = .next (s.received b 8 (eStop.now % s.cfg.period)).resync := by
  obtain ⟨hinParity, hinStop, -⟩ := hin
  have hparityEdge := execEdge_parityBit b eParity.now hen hinParity eParity.d
  rw [if_pos hright] at hparityEdge
  have hstopEdge : execEdge eStop.d eStop.now (s.received b 8 (eParity.now % s.cfg.period)).toStop =
      .next (s.received b 8 (eStop.now % s.cfg.period)).resync := by
    rw [hbad]
    exact execEdge_withDecoder eStop.now hen hinStop false .stop _ _ _
  exact (runEdges_cons hparityEdge _).trans (runEdges_cons hstopEdge [])

/-- A valid end pushes the byte (R99). -/
theorem runEdges_validEnd {s u : State} {b : Byte} {last : Nat} {eParity eStop : EdgeEvent} (hen : s.en = true)
    (hright : eParity.d = parityBit b) (hstop : eStop.d = true) (hin : inTime s.cfg last [eParity, eStop])
    (hpush : s.push b = .ok u) :
    runEdges [eParity, eStop] (s.received b 8 last) = .next (u.received b 8 (eStop.now % s.cfg.period)).resync := by
  obtain ⟨hinParity, hinStop, -⟩ := hin
  have hparityEdge := execEdge_parityBit b eParity.now hen hinParity eParity.d
  rw [if_pos hright] at hparityEdge
  have hstopEdge := execEdge_stopBit b eStop.now hen hinStop hpush
  rw [← hstop] at hstopEdge
  exact (runEdges_cons hparityEdge _).trans (runEdges_cons hstopEdge [])

/-- Settles O27: the ring is not touched on any path, and after a wrong parity bit a stop bit 0 is a start bit. -/
theorem invalidFrameQueuesNothing : Obligations.InvalidFrameQueuesNothing := by
  unfold Obligations.InvalidFrameQueuesNothing
  intro s b p q e es hen hidle hlevels hwrong hin
  obtain ⟨last, eParity, eStop, -, rfl, rfl, hinEnd, hrun⟩ := runEdges_wire hen hidle hlevels hin
  by_cases hparity : eParity.d = parityBit b
  · have hbad : eStop.d = false := hwrong.resolve_left (not_not_intro hparity)
    exact ⟨_, hrun.trans (runEdges_badStop hen hparity hbad hinEnd), by simp [hparity], rfl⟩
  · have hend := hrun.trans (runEdges_wrongParity hen hparity hinEnd)
    cases hstop : eStop.d with
    | true =>
      rw [hstop] at hend
      exact ⟨_, hend, by simp, rfl⟩
    | false =>
      rw [hstop] at hend
      exact ⟨_, hend, by simp [hparity, State.received, State.withDecoder], rfl⟩

/-! ## The FRAME word (R61, R74) -/

/-- The levels of a frame at their times, each by its place. -/
theorem timedEdges_eq_mapIdx (ds : List Bool) (t dt : Nat) :
    timedEdges ds t dt = ds.mapIdx fun k d => ⟨d, t + k * dt⟩ := by
  induction ds generalizing t with
  | nil => rfl
  | cons d ds ih =>
    have hshift : ∀ k, t + dt + k * dt = t + (k + 1) * dt := fun k => by ring
    simp only [timedEdges, ih, List.mapIdx_cons, Nat.zero_mul, Nat.add_zero, hshift]

/-- EDGE operations one after the other are edge events one after the other. -/
theorem runAll_edges (es : List EdgeEvent) (s : State) :
    runAll (es.map fun e => .edge e.d e.now) s = runEdges es s := by
  induction es generalizing s with
  | nil => rfl
  | cons e es ih =>
    simp only [List.map_cons, runAll, runEdges, exec_edge]
    cases execEdge e.d e.now s with
    | next u => exact ih u
    | fault f => rfl
    | refused r => rfl

/-- Settles O29: the word's events are the eleven levels, `dt` apart. -/
theorem frameWordIsElevenEdges : Obligations.FrameWordIsElevenEdges := by
  unfold Obligations.FrameWordIsElevenEdges
  intro s b p t dt
  have hedges : (wireLevels b p true).mapIdx (fun k d => Instr.edge d (t + k * dt)) =
      (frameEdges b p t dt).map fun e => .edge e.d e.now := by
    rw [frameEdges, timedEdges_eq_mapIdx]
    rfl
  rw [hedges, runAll_edges, exec_frame]

/-- The delta of two times `dt` apart, of which the first was stamped. -/
theorem modSub_add_mod (t dt n : Nat) (h : dt < n) : modSub (t + dt) (t % n) n = dt := by
  have hdiff : ((t + dt : Nat) : Int) - ((t % n : Nat) : Int) = dt + n * (t / n : Nat) := by
    have hdiv : (t : Int) = (t % n : Nat) + n * (t / n : Nat) := by exact_mod_cast (Nat.mod_add_div t n).symm
    push_cast at hdiv ⊢
    linarith
  rw [modSub, hdiff, Int.add_mul_emod_self_left, Int.emod_eq_of_lt (by omega) (by omega)]
  rfl

/-- Edges whose spacing is within the timeout are in time. -/
theorem inTime_timedEdges {c : Config} (hwf : c.wf = true) {dt : Nat} (hdt : dt ≤ c.timeoutUs) (ds : List Bool)
    (t : Nat) : inTime c (t % c.period) (timedEdges ds (t + dt) dt) := by
  have hperiod : dt < c.period := by
    simp only [Config.wf, Bool.and_eq_true, decide_eq_true_eq] at hwf
    omega
  induction ds generalizing t with
  | nil => trivial
  | cons d ds ih => exact ⟨(modSub_add_mod t dt _ hperiod).trans_le hdt, ih (t + dt)⟩

/-- The FRAME word from Idle, followed to its last two edges. -/
theorem exec_frame_of_idle {s : State} (hwf : s.cfg.wf = true) (hen : s.en = true) (hidle : s.st = .idle) (b : Byte)
    (p : Bool) (t : Nat) {dt : Nat} (hdt : dt ≤ s.cfg.timeoutUs) :
    ∃ last, inTime s.cfg last [⟨p, t + 9 * dt⟩, ⟨true, t + 10 * dt⟩] ∧
      exec (.frame b p t dt) s = runEdges [⟨p, t + 9 * dt⟩, ⟨true, t + 10 * dt⟩] (s.received b 8 last) := by
  have hlevels : (frameEdges b p t dt).map EdgeEvent.d = wireLevels b p true := rfl
  have hin := inTime_timedEdges hwf hdt (wireLevels b p true).tail t
  obtain ⟨last, eParity, eStop, hdrop, -, -, hinEnd, hrun⟩ := runEdges_wire hen hidle hlevels hin
  have hlast : (timedEdges (wireLevels b p true).tail (t + dt) dt).drop 8 = [⟨p, t + 9 * dt⟩, ⟨true, t + 10 * dt⟩] := by
    rw [timedEdges_eq_mapIdx, show t + 9 * dt = t + dt + 8 * dt by ring, show t + 10 * dt = t + dt + 9 * dt by ring]
    rfl
  have hends : [eParity, eStop] = [⟨p, t + 9 * dt⟩, ⟨true, t + 10 * dt⟩] := hdrop.symm.trans hlast
  rw [hends] at hinEnd hrun
  exact ⟨last, hinEnd, hrun⟩

/-- Settles O28: the spacing keeps every edge in time, and only the valid end touches the ring. -/
theorem frameWordDeliversItsByte : Obligations.FrameWordDeliversItsByte := by
  unfold Obligations.FrameWordDeliversItsByte
  intro s b t dt hwf hen hidle hhead hdt
  obtain ⟨u, hpush⟩ := s.push_completes b hhead
  refine ⟨⟨u, by rw [exec_rbPush, hpush, outcomeOf], ?_⟩, ?_⟩
  · obtain ⟨last, hin, hrun⟩ := exec_frame_of_idle hwf hen hidle b (parityBit b) t hdt
    rw [hrun, runEdges_validEnd hen rfl rfl hin hpush, State.received, lowBits_eight, runParity_eight]
    rfl
  · obtain ⟨last, hin, hrun⟩ := exec_frame_of_idle hwf hen hidle b (!parityBit b) t hdt
    rw [hrun, runEdges_wrongParity hen (Bool.not_ne_self _) hin, if_pos rfl, State.received, lowBits_eight,
      runParity_eight]
    rfl

end Sys2Proof.Machine

/-! The operations by their agents (00_scope.md R10): the rows a state selects, what the PRODUCER and the CONSUMER may
write, where an operation stops, and the invariant of the machine. -/

namespace Sys2Proof.Machine

open Sys2Proof

/-! ## The rows that a state selects -/

theorem scanRow_of_release {s : State} {c : Byte} (hcode : isCodeByte c = true) (hbrk : s.brk = true) :
    scanRow c s = .scanCodeRelease c := by
  obtain ⟨hExt, hBrk⟩ := (isCodeByte_iff c).1 hcode
  rw [scanRow, if_neg hExt, if_neg hBrk, if_pos hbrk]

theorem scanRow_of_lookup {s : State} {c : Byte} (hcode : isCodeByte c = true) (hbrk : s.brk = false) :
    scanRow c s = if s.ext then .scanCodeExt c else .scanCodeNormal c := by
  obtain ⟨hExt, hBrk⟩ := (isCodeByte_iff c).1 hcode
  rw [scanRow, if_neg hExt, if_neg hBrk, if_neg (by simp [hbrk])]

/-- Settles O24: each row's own condition is that some level or some byte selects it. -/
theorem unselectedRowsAreRefused : Obligations.UnselectedRowsAreRefused := by
  unfold Obligations.UnselectedRowsAreRefused
  intro s i hrow hedge hscan
  cases i with
  | edgeIdleStart => exact if_neg fun hst => hedge false (by simp [edgeRow, hst])
  | edgeIdleIgnore => exact if_neg fun hst => hedge true (by simp [edgeRow, hst])
  | edgeData d => exact if_neg fun hst => hedge d (by simp [edgeRow, hst])
  | edgeParityOk d => exact if_neg fun ⟨hst, hd⟩ => hedge d (by simp [edgeRow, hst, hd])
  | edgeParityFail d => exact if_neg fun ⟨hst, hd⟩ => hedge d (by simp [edgeRow, hst, hd])
  | edgeStopBad => exact if_neg fun hst => hedge false (by simp [edgeRow, hst])
  | edgeStopOk => exact if_neg fun hst => hedge true (by simp [edgeRow, hst])
  | scanCodeRelease c => exact if_neg fun ⟨hcode, hbrk⟩ => hscan c (scanRow_of_release hcode hbrk)
  | scanCodeExt c =>
    refine if_neg fun ⟨hcode, hbrk, hext⟩ => hscan c ?_
    rw [scanRow_of_lookup hcode (by simpa using hbrk), if_pos hext]
  | scanCodeNormal c =>
    refine if_neg fun ⟨hcode, hbrk, hext⟩ => hscan c ?_
    rw [scanRow_of_lookup hcode (by simpa using hbrk), if_neg (by simpa using hext)]
  | init | edge | available | readByte | nextChar | xltStep | rbPush | rbPop | rbCount | reset => nomatch hrow
  | frame | scanPrefixExt | scanPrefixBrk => nomatch hrow

theorem agentOf_edgeRow (d : Bool) (s : State) : agentOf (edgeRow d s) = .producer := by
  unfold edgeRow
  cases s.st with
  | idle => cases d <;> rfl
  | data => rfl
  | parity => exact (apply_ite agentOf _ _ _).trans (ite_self _)
  | stop => cases d <;> rfl

theorem agentOf_scanRow (b : Byte) (s : State) : agentOf (scanRow b s) = .consumer := by
  unfold scanRow
  split_ifs <;> rfl

/-- A row that completes is selected: by a level, and then it is that edge's state case, or by a byte, and then it is
the handling of that byte. -/
theorem caseRow_next {i : Instr} {s t : State} (hrow : isCaseRow i = true) (h : exec i s = .next t) :
    (agentOf i = .producer ∧ ∃ d, edgeCase d s = .next t) ∨
      (agentOf i = .consumer ∧ ∃ b, returnXlt (handleByte b s) = .next t) := by
  by_cases hedge : ∃ d, edgeRow d s = i
  · obtain ⟨d, rfl⟩ := hedge
    exact .inl ⟨agentOf_edgeRow d s, d, (exec_edgeRow d s).symm.trans h⟩
  by_cases hscan : ∃ b, scanRow b s = i
  · obtain ⟨b, rfl⟩ := hscan
    exact .inr ⟨agentOf_scanRow b s, b, (exec_scanRow b s).symm.trans h⟩
  rw [unselectedRowsAreRefused s i hrow (not_exists.1 hedge) (not_exists.1 hscan)] at h
  cases h

/-! ## The PRODUCER -/

/-- What the PRODUCER performs. -/
theorem producer_cases {i : Instr} (h : agentOf i = .producer) :
    (∃ d now, i = .edge d now) ∨ (∃ b, i = .rbPush b) ∨ (∃ b p t dt, i = .frame b p t dt) ∨ isCaseRow i = true := by
  cases i with
  | edge d now => exact .inl ⟨d, now, rfl⟩
  | rbPush b => exact .inr (.inl ⟨b, rfl⟩)
  | frame b p t dt => exact .inr (.inr (.inl ⟨b, p, t, dt, rfl⟩))
  | edgeIdleStart | edgeIdleIgnore | edgeData | edgeParityOk | edgeParityFail | edgeStopBad | edgeStopOk =>
    exact .inr (.inr (.inr rfl))
  | init | available | readByte | nextChar | xltStep | rbPop | rbCount | reset => nomatch h
  | scanPrefixExt | scanPrefixBrk | scanCodeRelease | scanCodeExt | scanCodeNormal => nomatch h

theorem outcomeOf_next {r : Except Fault State} {t : State} (h : outcomeOf r = .next t) : r = .ok t := by
  cases r with
  | ok u => rw [Host.Outcome.next.inj h]
  | error f => cases h

/-- A PRODUCER's row that completes is an edge's state case. -/
theorem producerRow_next {i : Instr} {s t : State} (hagent : agentOf i = .producer) (hrow : isCaseRow i = true)
    (h : exec i s = .next t) : ∃ d, edgeCase d s = .next t := by
  obtain ⟨-, hcase⟩ | ⟨hconsumer, -⟩ := caseRow_next hrow h
  · exact hcase
  · rw [hagent] at hconsumer
    cases hconsumer

/-- Edges one after the other, where the first one completes. -/
theorem runEdges_cons_next {s t : State} {e : EdgeEvent} {es : List EdgeEvent} (h : runEdges (e :: es) s = .next t) :
    ∃ u, execEdge e.d e.now s = .next u ∧ runEdges es u = .next t := by
  cases hedge : execEdge e.d e.now s with
  | next u => exact ⟨u, rfl, (runEdges_cons hedge es).symm.trans h⟩
  | fault f => simp [runEdges, hedge] at h
  | refused r => simp [runEdges, hedge] at h

theorem runEdges_producerOnly (es : List EdgeEvent) {s t : State} (h : runEdges es s = .next t) :
    ProducerOnly s t := by
  induction es generalizing s with
  | nil =>
    cases h
    rfl
  | cons e es ih =>
    obtain ⟨u, hedge, hrest⟩ := runEdges_cons_next h
    exact (execEdge_producerOnly hedge).trans (ih hrest)

/-- The PRODUCER's frame, in every state. -/
theorem exec_producerOnly {i : Instr} {s t : State} (hagent : agentOf i = .producer) (h : exec i s = .next t) :
    ProducerOnly s t := by
  obtain ⟨d, now, rfl⟩ | ⟨b, rfl⟩ | ⟨b, p, t0, dt, rfl⟩ | hrow := producer_cases hagent
  · exact execEdge_producerOnly h
  · exact ProducerOnly.of_push (outcomeOf_next h)
  · exact runEdges_producerOnly _ h
  · obtain ⟨d, hcase⟩ := producerRow_next hagent hrow h
    exact edgeCase_producerOnly hcase

theorem State.Inv.exec_producer {i : Instr} {s t : State} (hinv : s.Inv) (hagent : agentOf i = .producer)
    (h : exec i s = .next t) : t.Inv := by
  obtain ⟨d, now, rfl⟩ | ⟨b, rfl⟩ | ⟨b, p, t0, dt, rfl⟩ | hrow := producer_cases hagent
  · exact hinv.execEdge h
  · exact hinv.push (outcomeOf_next h)
  · obtain ⟨u, hrun, hu⟩ := runEdges_completes (frameEdges b p t0 dt) s hinv
    rw [← exec_frame, h] at hrun
    rwa [Host.Outcome.next.inj hrun]
  · obtain ⟨d, hcase⟩ := producerRow_next hagent hrow h
    exact hinv.edgeCase hcase

/-! ## The CONSUMER -/

/-- Nothing is taken off the queue, or its first byte is. -/
def TakesAtMostOne (s u : State) : Prop := u = s ∨ ∃ b, s.pop = .ok (b, u)

/-- The flags may change, and one value is returned, or NEXT_CHAR goes on (R128). -/
def Answers (i : Instr) (u t : State) : Prop :=
  (∃ r, t = { u with ext := t.ext, brk := t.brk, results := r :: u.results }) ∨
    (i = .nextChar ∧ t = { u with ext := t.ext, brk := t.brk, prog := encode .nextChar ++ u.prog })

theorem answers_returnXlt {b : Byte} {s t : State} (i : Instr) (h : returnXlt (handleByte b s) = .next t) :
    Answers i s t := by
  refine .inl ⟨(handleByte b s).1.ret, ?_⟩
  rw [← Host.Outcome.next.inj h, handleByte_frame b s]
  rfl

/-- An iteration takes at most one byte and writes the flags. -/
theorem State.xltStep_takes {s s' : State} {r : XltResult} (h : s.xltStep = .ok (r, s')) :
    ∃ u, TakesAtMostOne s u ∧ s' = { u with ext := s'.ext, brk := s'.brk } := by
  obtain ⟨-, -, rfl⟩ | ⟨-, b, u, hpop, hbyte⟩ := s.xltStep_ok s' r h
  · exact ⟨s', .inl rfl, rfl⟩
  · have hframe := handleByte_frame b u
    rw [hbyte] at hframe
    exact ⟨u, .inr ⟨b, hpop⟩, hframe⟩

theorem exec_readByte_next {s t : State} (h : exec .readByte s = .next t) :
    ∃ b u, s.pop = .ok (b, u) ∧ t = u.returned (.byte b) := by
  cases hpop : s.pop with
  | ok r => exact ⟨r.1, r.2, rfl, (Host.Outcome.next.inj ((exec_readByte_of_ok hpop).symm.trans h)).symm⟩
  | error f =>
    rw [exec_readByte_of_error hpop] at h
    cases h

theorem exec_rbPop_next {s t : State} (h : exec .rbPop s = .next t) :
    ∃ b u, s.pop = .ok (b, u) ∧ t = u.returned (.popped b) := by
  cases hpop : s.pop with
  | ok r => exact ⟨r.1, r.2, rfl, (Host.Outcome.next.inj ((exec_rbPop_of_ok hpop).symm.trans h)).symm⟩
  | error f =>
    rw [exec_rbPop_of_error hpop] at h
    cases h

theorem exec_xltStep_next {s t : State} (h : exec .xltStep s = .next t) :
    ∃ r s', s.xltStep = .ok (r, s') ∧ t = s'.returned r.ret := by
  simp only [exec, execXltStep] at h
  split at h
  · next r hstep => exact ⟨r.1, r.2, hstep, (Host.Outcome.next.inj h).symm⟩
  · cases h

theorem exec_nextChar_next {s t : State} (h : exec .nextChar s = .next t) :
    ∃ r s', s.xltStep = .ok (r, s') ∧
      ((∃ c, t = s'.returned (.char c)) ∨ t = { s' with prog := encode .nextChar ++ s'.prog }) := by
  simp only [exec, execNextChar] at h
  split at h
  · next c s' hstep => exact ⟨_, s', hstep, .inl ⟨c, (Host.Outcome.next.inj h).symm⟩⟩
  · next s' hstep => exact ⟨_, s', hstep, .inr (Host.Outcome.next.inj h).symm⟩
  · cases h

/-- What the CONSUMER's operations besides INIT, and RB_COUNT, can do. -/
theorem exec_consumer {i : Instr} {s t : State} (hagent : agentOf i = .consumer ∨ agentOf i = .either)
    (hinit : i ≠ .init) (h : exec i s = .next t) : ∃ u, TakesAtMostOne s u ∧ Answers i u t := by
  cases i with
  | available | rbCount | scanPrefixExt | scanPrefixBrk =>
    obtain rfl := Host.Outcome.next.inj h
    exact ⟨s, .inl rfl, .inl ⟨_, rfl⟩⟩
  | readByte =>
    obtain ⟨b, u, hpop, rfl⟩ := exec_readByte_next h
    exact ⟨u, .inr ⟨b, hpop⟩, .inl ⟨_, rfl⟩⟩
  | rbPop =>
    obtain ⟨b, u, hpop, rfl⟩ := exec_rbPop_next h
    exact ⟨u, .inr ⟨b, hpop⟩, .inl ⟨_, rfl⟩⟩
  | xltStep =>
    obtain ⟨r, s', hstep, rfl⟩ := exec_xltStep_next h
    obtain ⟨u, htakes, hframe⟩ := State.xltStep_takes hstep
    refine ⟨u, htakes, .inl ⟨r.ret, ?_⟩⟩
    rw [hframe]
    rfl
  | nextChar =>
    obtain ⟨r, s', hstep, hend⟩ := exec_nextChar_next h
    obtain ⟨u, htakes, hframe⟩ := State.xltStep_takes hstep
    refine ⟨u, htakes, ?_⟩
    obtain ⟨c, rfl⟩ | rfl := hend
    · refine .inl ⟨.char c, ?_⟩
      rw [hframe]
      rfl
    · refine .inr ⟨rfl, ?_⟩
      rw [hframe]
  | scanCodeRelease c | scanCodeExt c | scanCodeNormal c =>
    obtain ⟨hproducer, -⟩ | ⟨-, b, hbyte⟩ := caseRow_next rfl h
    · cases hproducer
    · exact ⟨s, .inl rfl, answers_returnXlt _ hbyte⟩
  | init => exact absurd rfl hinit
  | edge | rbPush | frame | reset => simp [agentOf] at hagent
  | edgeIdleStart | edgeIdleIgnore | edgeData | edgeParityOk | edgeParityFail | edgeStopBad | edgeStopOk =>
    simp [agentOf] at hagent

/-- Nothing but the CONSUMER's registers, the returned values and the trace differs (00_scope.md R10). -/
def ConsumerOnly (s t : State) : Prop :=
  t = { s with tail := t.tail, ext := t.ext, brk := t.brk, results := t.results, prog := t.prog }

theorem TakesAtMostOne.eq {s u : State} (h : TakesAtMostOne s u) : u = { s with tail := u.tail } := by
  obtain rfl | ⟨b, hpop⟩ := h
  · rfl
  · rw [State.eq_popped_of_pop hpop]
    rfl

theorem Answers.consumerOnly {i : Instr} {u t : State} (h : Answers i u t) : ConsumerOnly u t := by
  obtain ⟨r, hanswer⟩ | ⟨-, hanswer⟩ := h
  · rw [hanswer]
    rfl
  · rw [hanswer]
    rfl

theorem Answers.tail_eq {i : Instr} {u t : State} (h : Answers i u t) : t.tail = u.tail := by
  obtain ⟨r, hanswer⟩ | ⟨-, hanswer⟩ := h
  · rw [hanswer]
  · rw [hanswer]

/-- The CONSUMER's frame, in every state. -/
theorem exec_consumerOnly {i : Instr} {s t : State} (hagent : agentOf i = .consumer ∨ agentOf i = .either)
    (hinit : i ≠ .init) (h : exec i s = .next t) : ConsumerOnly s t := by
  obtain ⟨u, htakes, hanswers⟩ := exec_consumer hagent hinit h
  have hframe := hanswers.consumerOnly
  rw [ConsumerOnly, htakes.eq] at hframe
  exact hframe

theorem State.Inv.exec_consumer {i : Instr} {s t : State} (hinv : s.Inv)
    (hagent : agentOf i = .consumer ∨ agentOf i = .either) (hinit : i ≠ .init) (h : exec i s = .next t) : t.Inv := by
  obtain ⟨u, htakes, hanswers⟩ := Machine.exec_consumer hagent hinit h
  have hring : u.RingInv := by
    obtain rfl | ⟨b, hpop⟩ := htakes
    · exact hinv.ringInv
    · exact hinv.ringInv.pop hpop
  have hframe := hanswers.consumerOnly
  have htail := hanswers.tail_eq
  have hwhole := exec_consumerOnly hagent hinit h
  obtain ⟨-, hpartial, htime⟩ := s.inv_iff.1 hinv
  refine t.inv_iff.2 ⟨hring.congr (by rw [hframe]) (by rw [hframe]) htail (by rw [hframe]), ?_, ?_⟩
  · rw [hwhole]
    exact hpartial
  · rw [hwhole]
    exact htime

/-! ## Every operation -/

/-- INIT, RESET, the PRODUCER's operations and the others. -/
theorem agent_cases (i : Instr) :
    i = .init ∨ i = .reset ∨ agentOf i = .producer ∨ (i ≠ .init ∧ (agentOf i = .consumer ∨ agentOf i = .either)) := by
  cases i <;> simp [agentOf]

theorem exec_init_next {s t : State} (h : exec .init s = .next t) :
    s.en = false ∧ t = { s.clearDecoder with en := true } := by
  cases hen : s.en with
  | true =>
    rw [exec_init_of_enabled hen] at h
    cases h
  | false =>
    rw [exec_init_of_disabled hen] at h
    exact ⟨rfl, (Host.Outcome.next.inj h).symm⟩

/-- An empty ring meets its part of the invariant where BUF does. -/
theorem State.ringInv_of_empty {s : State} (hwf : s.cfg.wf = true) (hhead : s.head = 0) (htail : s.tail = 0)
    (hbuf : Memory.wf s.buf = true) (hbelow : Memory.below s.cfg.C s.buf = true) : s.RingInv := by
  have hcount : s.count = 0 := State.count_of_head_eq_tail (hhead.trans htail.symm)
  have hnone : s.queue = [] := List.eq_nil_of_length_eq_zero (s.length_queue.trans hcount)
  refine State.ringInv_of_queue hwf ?_ ?_ hbuf hbelow ?_
  · rw [hhead]
    exact C_pos s.cfg
  · rw [htail]
    exact C_pos s.cfg
  · rw [hnone]
    exact fun x hx => nomatch hx

/-- Settles O51: Idle, an empty ring, time 0. -/
theorem resetStateMeetsTheInvariant : Obligations.ResetStateMeetsTheInvariant := by
  unfold Obligations.ResetStateMeetsTheInvariant
  exact State.inv_of_idle (State.ringInv_of_empty (by decide) rfl rfl rfl rfl) rfl (period_pos _)

theorem State.Inv.exec {i : Instr} {s t : State} (hinv : s.Inv) (h : exec i s = .next t) : t.Inv := by
  obtain ⟨hwf, -, -, ⟨hbuf, hbelow, -⟩, -⟩ := id hinv
  obtain rfl | rfl | hproducer | ⟨hinit, hagent⟩ := agent_cases i
  · obtain ⟨-, rfl⟩ := exec_init_next h
    exact State.inv_of_idle (State.ringInv_of_empty hwf rfl rfl hbuf hbelow) rfl (period_pos _)
  · obtain rfl := Host.Outcome.next.inj h
    exact State.inv_of_idle (State.ringInv_of_empty hwf rfl rfl rfl rfl) rfl (period_pos _)
  · exact hinv.exec_producer hproducer h
  · exact hinv.exec_consumer hagent hinit h

/-- Settles O52: the trace and the lane are no part of the invariant, and every operation keeps it. -/
theorem everyStepKeepsTheInvariant : Obligations.EveryStepKeepsTheInvariant := by
  unfold Obligations.EveryStepKeepsTheInvariant
  intro s t hinv h
  obtain ⟨prog, env, rfl | ⟨i, hi⟩⟩ := step_next h
  · exact hinv
  · exact State.Inv.exec (s := { s with prog := prog, env := env }) hinv hi

end Sys2Proof.Machine

/-! The statements about every operation (00_scope.md section 4, 20_memory.md section 5, 60_exceptions.md): what each
agent leaves unchanged, where an operation stops, and what becomes of the queue. -/

namespace Sys2Proof.Machine

open Sys2Proof

/-! ## What no operation, or only a named one, writes -/

theorem exec_cfg {i : Instr} {s t : State} (h : exec i s = .next t) : t.cfg = s.cfg := by
  obtain rfl | rfl | hproducer | ⟨hinit, hagent⟩ := agent_cases i
  · obtain ⟨-, rfl⟩ := exec_init_next h
    rfl
  · obtain rfl := Host.Outcome.next.inj h
    rfl
  · rw [exec_producerOnly hproducer h]
  · rw [exec_consumerOnly hagent hinit h]

/-- Settles O56: both agents' frames leave the build and `en` alone, and INIT sets `en`. -/
theorem buildIsConstantAndEnableIsNeverCleared : Obligations.BuildIsConstantAndEnableIsNeverCleared := by
  unfold Obligations.BuildIsConstantAndEnableIsNeverCleared
  refine ⟨fun s t h => ?_, fun i s t h hen hcleared => ?_⟩
  · obtain ⟨prog, env, rfl | ⟨i, hi⟩⟩ := step_next h
    · rfl
    · exact exec_cfg (s := { s with prog := prog, env := env }) hi
  · have hkept : t.en ≠ s.en := by simp [hen, hcleared]
    obtain rfl | rfl | hproducer | ⟨hinit, hagent⟩ := agent_cases i
    · obtain ⟨-, rfl⟩ := exec_init_next h
      cases hcleared
    · rfl
    · exact absurd (by rw [exec_producerOnly hproducer h]) hkept
    · exact absurd (by rw [exec_consumerOnly hagent hinit h]) hkept

/-- Settles O57. -/
theorem onlyConsumerOperationsReturnValues : Obligations.OnlyConsumerOperationsReturnValues := by
  unfold Obligations.OnlyConsumerOperationsReturnValues
  intro i s t h
  obtain rfl | rfl | hproducer | ⟨hinit, hagent⟩ := agent_cases i
  · obtain ⟨-, rfl⟩ := exec_init_next h
    exact .inl rfl
  · obtain rfl := Host.Outcome.next.inj h
    exact .inl rfl
  · exact .inl (by rw [exec_producerOnly hproducer h])
  · obtain ⟨u, htakes, hanswers⟩ := exec_consumer hagent hinit h
    have hold : u.results = s.results := by rw [htakes.eq]
    obtain ⟨r, hanswer⟩ | ⟨-, hanswer⟩ := hanswers
    · exact .inr ⟨⟨r, by rw [hanswer, hold]⟩, hagent⟩
    · exact .inl (by rw [hanswer]; exact hold)

/-- Settles O53. -/
theorem consumerWritesOnlyItsOwnState : Obligations.ConsumerWritesOnlyItsOwnState := by
  unfold Obligations.ConsumerWritesOnlyItsOwnState
  intro i s t hagent hinit h
  have hframe := exec_consumerOnly hagent hinit h
  refine ⟨hframe, fun hcall => ?_, fun a => by rw [hframe], ?_⟩
  · obtain ⟨u, htakes, ⟨r, hanswer⟩ | ⟨hyes, -⟩⟩ := exec_consumer hagent hinit h
    · rw [hanswer, htakes.eq]
    · exact absurd hyes hcall
  · rintro (rfl | rfl)
    · obtain rfl := Host.Outcome.next.inj h
      rfl
    · obtain rfl := Host.Outcome.next.inj h
      rfl

/-- A pop, noted as a result, leaves the flags. -/
theorem flags_of_pop {s u : State} {b : Byte} (h : s.pop = .ok (b, u)) (r : Ret) :
    (u.returned r).ext = s.ext ∧ (u.returned r).brk = s.brk := by
  rw [State.eq_popped_of_pop h]
  exact ⟨rfl, rfl⟩

/-- SCAN.CODE.NORMAL reads the flags only (R127 step 5). -/
theorem exec_scanCodeNormal_flags {c : Byte} {s t : State} (h : exec (.scanCodeNormal c) s = .next t) :
    t.ext = s.ext ∧ t.brk = s.brk := by
  simp only [exec, execScanCodeNormal] at h
  split at h
  · rw [← Host.Outcome.next.inj h]
    exact ⟨rfl, rfl⟩
  · cases h

/-- Settles O50: neither the PRODUCER nor the public operations besides NEXT_CHAR write a flag, and the normal row does
not either. -/
theorem prefixFlagsAreSticky : Obligations.PrefixFlagsAreSticky := by
  unfold Obligations.PrefixFlagsAreSticky
  intro i s t h hchanged
  have hnot : ¬ (t.ext = s.ext ∧ t.brk = s.brk) := by tauto
  obtain rfl | rfl | hproducer | ⟨hinit, hagent⟩ := agent_cases i
  · obtain ⟨-, rfl⟩ := exec_init_next h
    exact absurd ⟨rfl, rfl⟩ hnot
  · simp
  · have hframe := exec_producerOnly hproducer h
    exact absurd ⟨by rw [hframe], by rw [hframe]⟩ hnot
  · cases i with
    | xltStep | nextChar | scanPrefixExt | scanPrefixBrk | scanCodeRelease | scanCodeExt => simp
    | available | rbCount =>
      obtain rfl := Host.Outcome.next.inj h
      exact absurd ⟨rfl, rfl⟩ hnot
    | readByte =>
      obtain ⟨b, u, hpop, rfl⟩ := exec_readByte_next h
      exact absurd (flags_of_pop hpop _) hnot
    | rbPop =>
      obtain ⟨b, u, hpop, rfl⟩ := exec_rbPop_next h
      exact absurd (flags_of_pop hpop _) hnot
    | scanCodeNormal c => exact absurd (exec_scanCodeNormal_flags h) hnot
    | init => exact absurd rfl hinit
    | edge | rbPush | frame | reset => simp [agentOf] at hagent
    | edgeIdleStart | edgeIdleIgnore | edgeData | edgeParityOk | edgeParityFail | edgeStopBad | edgeStopOk =>
      simp [agentOf] at hagent

/-! ## Where an operation stops (R173) -/

/-- A case row completes, or nothing selects it and it is refused. -/
theorem caseRow_completes {i : Instr} {s : State} (hh : s.head < s.cfg.C) (hrow : isCaseRow i = true) :
    (∃ t, exec i s = .next t) ∨
      (exec i s = .refused .rowNotSelected ∧ (∀ d, edgeRow d s ≠ i) ∧ ∀ b, scanRow b s ≠ i) := by
  by_cases hedge : ∃ d, edgeRow d s = i
  · obtain ⟨d, rfl⟩ := hedge
    obtain ⟨t, ht⟩ := edgeCase_completes d s hh
    exact .inl ⟨t, (exec_edgeRow d s).trans ht⟩
  by_cases hscan : ∃ b, scanRow b s = i
  · obtain ⟨b, rfl⟩ := hscan
    exact .inl ⟨_, exec_scanRow b s⟩
  have hedge := not_exists.1 hedge
  have hscan := not_exists.1 hscan
  exact .inr ⟨unselectedRowsAreRefused s i hrow hedge hscan, hedge, hscan⟩

/-- Settles O55: the invariant gives every push its slot and every pop its byte, so a stop is one of the three listed
kinds. -/
theorem onlyTheListedOperationsStop : Obligations.OnlyTheListedOperationsStop := by
  unfold Obligations.OnlyTheListedOperationsStop
  intro i s hinv
  have hring := hinv.ringInv
  by_cases hrow : isCaseRow i = true
  · obtain hnext | ⟨hrefused, hedge, hscan⟩ := caseRow_completes hring.head_lt hrow
    · exact .inl hnext
    · exact .inr (.inr (.inr ⟨hrefused, hrow, hedge, hscan⟩))
  cases i with
  | available | rbCount | reset | scanPrefixExt | scanPrefixBrk => exact .inl ⟨_, rfl⟩
  | init =>
    cases hen : s.en with
    | true => exact .inr (.inr (.inl ⟨exec_init_of_enabled hen, rfl, rfl⟩))
    | false => exact .inl ⟨_, exec_init_of_disabled hen⟩
  | readByte =>
    by_cases hempty : s.head = s.tail
    · exact .inr (.inl ⟨exec_readByte_of_error (s.pop_empty hempty), hempty, .inl rfl⟩)
    · obtain ⟨b, hpop⟩ := hring.pop_completes hempty
      exact .inl ⟨_, exec_readByte_of_ok hpop⟩
  | rbPop =>
    by_cases hempty : s.head = s.tail
    · exact .inr (.inl ⟨exec_rbPop_of_error (s.pop_empty hempty), hempty, .inr rfl⟩)
    · obtain ⟨b, hpop⟩ := hring.pop_completes hempty
      exact .inl ⟨_, exec_rbPop_of_ok hpop⟩
  | xltStep =>
    obtain ⟨r, s', hstep⟩ := hring.xltStep_completes
    exact .inl ⟨_, exec_xltStep_of_ok hstep⟩
  | nextChar =>
    obtain ⟨r, s', hstep⟩ := hring.xltStep_completes
    cases r with
    | done c => exact .inl ⟨_, exec_nextChar_of_done hstep⟩
    | continues => exact .inl ⟨_, exec_nextChar_of_continues hstep⟩
  | edge d now => exact .inl (execEdge_completes hring.head_lt d now)
  | frame b p t dt =>
    obtain ⟨u, hrun, -⟩ := runEdges_completes (frameEdges b p t dt) s hinv
    exact .inl ⟨u, hrun⟩
  | rbPush b =>
    obtain ⟨u, hpush⟩ := s.push_completes b hring.head_lt
    exact .inl ⟨u, by rw [exec_rbPush, hpush, outcomeOf]⟩
  | edgeIdleStart | edgeIdleIgnore | edgeData | edgeParityOk | edgeParityFail | edgeStopBad | edgeStopOk =>
    exact absurd rfl hrow
  | scanCodeRelease | scanCodeExt | scanCodeNormal => exact absurd rfl hrow

/-! ## The PRODUCER adds at most one byte -/

/-- Nothing but the decoder's registers differs, or one byte was pushed besides, with room for it. -/
def AddsAtMostOne (s t : State) : Prop :=
  DecoderOnly s t ∨ ∃ b u, s.isFull = false ∧ s.push b = .ok u ∧ DecoderOnly u t

theorem AddsAtMostOne.of_push {s u : State} {b : Byte} (h : s.push b = .ok u) : AddsAtMostOne s u := by
  cases hfull : s.isFull with
  | true =>
    obtain ⟨-, rfl⟩ | ⟨hroom, -⟩ := s.push_ok u b h
    · exact .inl (DecoderOnly.refl u)
    · simp [hfull] at hroom
  | false => exact .inr ⟨b, u, hfull, h, DecoderOnly.refl u⟩

theorem AddsAtMostOne.trans_decoderOnly {s t u : State} (h : AddsAtMostOne s t) (h' : DecoderOnly t u) :
    AddsAtMostOne s u := by
  obtain hst | ⟨b, v, hroom, hpush, hvt⟩ := h
  · exact .inl (hst.trans h')
  · exact .inr ⟨b, v, hroom, hpush, hvt.trans h'⟩

theorem DecoderOnly.trans_addsAtMostOne {s t u : State} (h : DecoderOnly s t) (h' : AddsAtMostOne t u) :
    AddsAtMostOne s u := by
  obtain htu | ⟨b, v, hroom, hpush, hvu⟩ := h'
  · exact .inl (h.trans htu)
  · rw [h] at hroom hpush
    obtain ⟨hh, -⟩ := State.push_stores hpush hroom
    obtain ⟨w, hw⟩ := s.push_completes b hh
    have hv := Except.ok.inj (hpush.symm.trans (State.push_withDecoder hw _ _ _ _ _))
    have hwv : DecoderOnly w v := by
      rw [hv]
      rfl
    exact .inr ⟨b, w, hroom, hw, hwv.trans hvu⟩

theorem edgeCase_addsAtMostOne {d : Bool} {s t : State} (h : edgeCase d s = .next t) : AddsAtMostOne s t := by
  obtain hdecoder | ⟨-, u, hpush, rfl⟩ := edgeCase_effect h
  · exact .inl hdecoder
  · exact (AddsAtMostOne.of_push hpush).trans_decoderOnly rfl

theorem execEdge_addsAtMostOne {d : Bool} {now : Nat} {s t : State} (h : execEdge d now s = .next t) :
    AddsAtMostOne s t := by
  obtain rfl | hcase := execEdge_next h
  · exact .inl (DecoderOnly.refl t)
  · exact (DecoderOnly.precheck s now).trans_addsAtMostOne (edgeCase_addsAtMostOne hcase)

/-- An edge that pushes leaves the decoder in Idle (R99). -/
theorem execEdge_decoderOnly_or_idle {d : Bool} {now : Nat} {s t : State} (h : execEdge d now s = .next t) :
    DecoderOnly s t ∨ t.st = .idle := by
  obtain rfl | hcase := execEdge_next h
  · exact .inl (DecoderOnly.refl t)
  · obtain hdecoder | ⟨-, u, -, rfl⟩ := edgeCase_effect hcase
    · exact .inl ((DecoderOnly.precheck s now).trans hdecoder)
    · exact .inr rfl

/-- How many edges a push is away at least: those the frame lacks, or a whole frame of eleven. -/
def State.edgesToPush (s : State) : Nat := if s.st = .idle then 11 else s.edgesLeft

theorem State.edgesToPush_le (s : State) : s.edgesToPush ≤ 11 := by
  unfold State.edgesToPush
  have := s.edgesLeft_le
  split <;> omega

theorem State.edgesLeft_le_edgesToPush (s : State) : s.edgesLeft ≤ s.edgesToPush := by
  unfold State.edgesToPush
  have := s.edgesLeft_le
  split <;> omega

theorem State.edgesToPush_of_stop {s : State} (h : s.st = .stop) : s.edgesToPush = 1 := by
  simp [State.edgesToPush, State.edgesLeft, h]

/-- In Idle an edge starts a frame or changes nothing. -/
theorem edgeCase_of_idle {s : State} (h : s.st = .idle) (d : Bool) :
    edgeCase d s = .next (if d then s else s.startFrame) := by
  cases d <;> simp [edgeCase, h]

/-- A state case brings a push at most one edge nearer. -/
theorem edgeCase_edgesToPush {d : Bool} {s t : State} (hframe : s.FrameInv) (h : edgeCase d s = .next t) :
    s.edgesToPush ≤ t.edgesToPush + 1 := by
  by_cases hidle : s.st = .idle
  · rw [edgeCase_of_idle hidle] at h
    obtain rfl := Host.Outcome.next.inj h
    cases d with
    | true => exact Nat.le_succ _
    | false => exact s.edgesToPush_le
  · obtain hend | hnear := edgeCase_edgesLeft hframe hidle h
    · have hle := s.edgesToPush_le
      rw [State.edgesToPush.eq_def t, if_pos hend]
      omega
    · have hle := t.edgesLeft_le_edgesToPush
      rw [State.edgesToPush.eq_def s, if_neg hidle]
      omega

/-- The pre-check brings a push no nearer. -/
theorem State.edgesToPush_precheck (s : State) (now : Nat) : s.edgesToPush ≤ (s.precheck now).edgesToPush := by
  rw [s.precheck_eq]
  split
  · exact s.edgesToPush_le
  · exact le_rfl

/-- An edge pushes nothing unless a push is one edge away, and it brings it at most one edge nearer. -/
theorem execEdge_edgesToPush {d : Bool} {now : Nat} {s t : State} (hinv : s.Inv) (hfar : 1 < s.edgesToPush)
    (h : execEdge d now s = .next t) : DecoderOnly s t ∧ s.edgesToPush ≤ t.edgesToPush + 1 := by
  obtain rfl | hcase := execEdge_next h
  · exact ⟨DecoderOnly.refl t, Nat.le_succ _⟩
  have hpre := s.edgesToPush_precheck now
  refine ⟨?_, hpre.trans (edgeCase_edgesToPush (hinv.precheck now).frameInv hcase)⟩
  obtain hdecoder | ⟨hstop, -⟩ := edgeCase_effect hcase
  · exact (DecoderOnly.precheck s now).trans hdecoder
  · have hone := State.edgesToPush_of_stop hstop
    omega

/-- Fewer edges than a push is away push nothing. -/
theorem runEdges_decoderOnly (es : List EdgeEvent) {s t : State} (hinv : s.Inv) (hfew : es.length < s.edgesToPush)
    (h : runEdges es s = .next t) : DecoderOnly s t := by
  induction es generalizing s with
  | nil =>
    cases h
    exact DecoderOnly.refl _
  | cons e es ih =>
    rw [List.length_cons] at hfew
    obtain ⟨u, hedge, hrest⟩ := runEdges_cons_next h
    obtain ⟨hdecoder, hnear⟩ := execEdge_edgesToPush hinv (by omega) hedge
    exact hdecoder.trans (ih (hinv.execEdge hedge) (by omega) hrest)

/-- Eleven edges push at most once: after a push the decoder is in Idle, and a push is a whole frame away. -/
theorem runEdges_addsAtMostOne (es : List EdgeEvent) {s t : State} (hinv : s.Inv) (hlen : es.length ≤ 11)
    (h : runEdges es s = .next t) : AddsAtMostOne s t := by
  induction es generalizing s with
  | nil =>
    cases h
    exact .inl (DecoderOnly.refl _)
  | cons e es ih =>
    rw [List.length_cons] at hlen
    obtain ⟨u, hedge, hrest⟩ := runEdges_cons_next h
    have hu : u.Inv := hinv.execEdge hedge
    by_cases hidle : u.st = .idle
    · have hfew : es.length < u.edgesToPush := by
        rw [State.edgesToPush, if_pos hidle]
        omega
      exact (execEdge_addsAtMostOne hedge).trans_decoderOnly (runEdges_decoderOnly es hu hfew hrest)
    · have hdecoder := (execEdge_decoderOnly_or_idle hedge).resolve_right hidle
      exact hdecoder.trans_addsAtMostOne (ih hu (by omega) hrest)

theorem exec_addsAtMostOne {i : Instr} {s t : State} (hinv : s.Inv) (hagent : agentOf i = .producer)
    (h : exec i s = .next t) : AddsAtMostOne s t := by
  obtain ⟨d, now, rfl⟩ | ⟨b, rfl⟩ | ⟨b, p, t0, dt, rfl⟩ | hrow := producer_cases hagent
  · exact execEdge_addsAtMostOne h
  · exact AddsAtMostOne.of_push (outcomeOf_next h)
  · exact runEdges_addsAtMostOne _ hinv le_rfl h
  · obtain ⟨d, hcase⟩ := producerRow_next hagent hrow h
    exact edgeCase_addsAtMostOne hcase

/-- Settles O54: of the ways to stop none but the unselected row is the PRODUCER's. -/
theorem producerWritesOnlyItsOwnState : Obligations.ProducerWritesOnlyItsOwnState := by
  unfold Obligations.ProducerWritesOnlyItsOwnState
  intro i s hagent hinv
  obtain ⟨t, h⟩ | ⟨-, -, rfl | rfl⟩ | ⟨-, -, rfl⟩ | ⟨hrefused, hrow, hedge, -⟩ := onlyTheListedOperationsStop i s hinv
  · refine .inr ⟨t, h, exec_producerOnly hagent h, ?_⟩
    obtain hdecoder | ⟨b, u, hroom, hpush, hdecoder⟩ := exec_addsAtMostOne hinv hagent h
    · have hhead : t.head = s.head := by rw [hdecoder]; rfl
      have hbuf : t.buf = s.buf := by rw [hdecoder]; rfl
      exact ⟨fun a _ => by rw [hbuf], .inl ⟨hhead, hbuf⟩⟩
    · have hhead : t.head = u.head := by rw [hdecoder]; rfl
      have hbuf : t.buf = u.buf := by rw [hdecoder]; rfl
      obtain ⟨-, rfl⟩ := State.push_stores hpush hroom
      refine ⟨fun a ha => ?_, .inr ⟨hhead, hroom⟩⟩
      rw [hbuf]
      exact memRead_memWrite_other _ _ _ _ ha
  · cases hagent
  · cases hagent
  · cases hagent
  · exact .inl ⟨hrefused, hrow, hedge⟩

theorem DecoderOnly.queue_eq {s t : State} (h : DecoderOnly s t) : t.queue = s.queue := by
  rw [h]
  rfl

theorem Answers.queue_eq {i : Instr} {u t : State} (h : Answers i u t) : t.queue = u.queue :=
  State.queue_congr (by rw [h.consumerOnly]) (by rw [h.consumerOnly]) h.tail_eq (by rw [h.consumerOnly])

/-- RB_COUNT is the one operation that either side may call (R110). -/
theorem eq_rbCount_of_either {i : Instr} (h : agentOf i = .either) : i = .rbCount := by
  cases i <;> simp [agentOf] at h ⊢

/-- Settles O58: the CONSUMER's pop and the PRODUCER's push are the only changes of the indices and of BUF. -/
theorem queueChangesAtItsEndsOnly : Obligations.QueueChangesAtItsEndsOnly := by
  unfold Obligations.QueueChangesAtItsEndsOnly
  intro i s t hinv hinit hreset h
  obtain rfl | rfl | hproducer | ⟨-, hagent⟩ := agent_cases i
  · exact absurd rfl hinit
  · exact absurd rfl hreset
  · obtain hdecoder | ⟨b, u, hroom, hpush, hdecoder⟩ := exec_addsAtMostOne hinv hproducer h
    · exact .inl hdecoder.queue_eq
    · exact .inr (.inr ⟨hproducer, b, hdecoder.queue_eq.trans (State.queue_push hpush hroom hinv.ringInv.tail_lt)⟩)
  · obtain hconsumer | heither := hagent
    · obtain ⟨u, rfl | ⟨b, hpop⟩, hanswers⟩ := exec_consumer (.inl hconsumer) hinit h
      · exact .inl hanswers.queue_eq
      · refine .inr (.inl ⟨hconsumer, some b, ?_⟩)
        rw [hanswers.queue_eq]
        exact State.queue_pop hpop hinv.ringInv.head_lt
    · obtain rfl := eq_rbCount_of_either heither
      obtain rfl := Host.Outcome.next.inj h
      exact .inl rfl

end Sys2Proof.Machine

/-! The decoder's registers while it is Idle (41_frame_decoder.md R101, 93_implementation_defined.md U9): two Idle
states that differ in the partial frame and the last edge's time only answer every operation alike. -/

namespace Sys2Proof.Machine

open Sys2Proof

/-! ## Alike states and outcomes -/

theorem State.alike_refl (s : State) : s.alike s := .inl rfl

theorem Out.alike_refl (o : Out) : Out.alike o o := by
  cases o with
  | next s => exact s.alike_refl
  | fault f => rfl
  | refused r => rfl

theorem Out.alike_cases {o p : Out} (h : Out.alike o p) :
    (∃ s t, o = .next s ∧ p = .next t ∧ s.alike t) ∨ (∃ f, o = .fault f ∧ p = .fault f) ∨
      ∃ r, o = .refused r ∧ p = .refused r := by
  cases o <;> cases p <;> simp_all [Out.alike]

/-- Alike states that are not equal are Idle, and one is the other with its decoder's registers replaced. -/
theorem State.alike_cases {s t : State} (h : s.alike t) :
    s = t ∨ (s.st = .idle ∧ ∃ acc idx par tLast, t = s.withDecoder .idle acc idx par tLast) := by
  refine h.imp_right fun ⟨hidle, heq⟩ => ⟨hidle, t.acc, t.idx, t.par, t.tLast, ?_⟩
  rw [← hidle]
  exact heq

theorem State.alike_withDecoder {s : State} (h : s.st = .idle) (acc : Byte) (idx : BitVec 4) (par : Bool)
    (tLast : Nat) : s.alike (s.withDecoder .idle acc idx par tLast) := by
  rw [← h]
  exact .inr ⟨h, rfl⟩

/-- An outcome with its next state changed. -/
def mapNext (f : State → State) : Out → Out
  | .next s => .next (f s)
  | .fault r => .fault r
  | .refused r => .refused r

/-- An outcome is alike itself with the decoder's registers of its Idle next state replaced. -/
theorem alike_mapNext_withDecoder {o : Out} (h : ∀ u, o = .next u → u.st = .idle) (acc : Byte) (idx : BitVec 4)
    (par : Bool) (tLast : Nat) : Out.alike o (mapNext (·.withDecoder .idle acc idx par tLast) o) := by
  cases o with
  | next u => exact State.alike_withDecoder (h u rfl) acc idx par tLast
  | fault f => rfl
  | refused r => rfl

/-! ## The ring and the translator neither read nor write the decoder's registers -/

section
variable (s : State) (st : St) (acc : Byte) (idx : BitVec 4) (par : Bool) (tLast : Nat)

theorem State.push_of_withDecoder (b : Byte) :
    (s.withDecoder st acc idx par tLast).push b = (s.push b).map (·.withDecoder st acc idx par tLast) := by
  by_cases hh : s.head < s.cfg.C
  · obtain ⟨u, hpush⟩ := s.push_completes b hh
    rw [hpush, State.push_withDecoder hpush]
    rfl
  · have habsent : ∀ u : State, u.isFull = s.isFull → u.head = s.head → u.cfg = s.cfg →
        u.push b = if s.isFull then .ok u else .error (.slotAbsent s.head) := by
      intro u hfull hhead hcfg
      rw [State.push, State.bufWrite, hfull, hhead, hcfg, if_neg hh]
    rw [habsent s rfl rfl rfl, habsent (s.withDecoder st acc idx par tLast) rfl rfl rfl]
    cases s.isFull <;> rfl

theorem State.pop_of_withDecoder :
    (s.withDecoder st acc idx par tLast).pop = s.pop.map fun r => (r.1, r.2.withDecoder st acc idx par tLast) := by
  have hempty : (s.withDecoder st acc idx par tLast).isEmpty = s.isEmpty := rfl
  have hread : (s.withDecoder st acc idx par tLast).bufRead (s.withDecoder st acc idx par tLast).tail =
    s.bufRead s.tail := rfl
  rw [State.pop, State.pop, hempty, hread]
  cases s.isEmpty with
  | true => rfl
  | false => cases s.bufRead s.tail <;> rfl

theorem handleByte_of_withDecoder (b : Byte) :
    handleByte b (s.withDecoder st acc idx par tLast) =
      ((handleByte b s).1, (handleByte b s).2.withDecoder st acc idx par tLast) := by
  rw [handleByte_congr (s := s) (t := s.withDecoder st acc idx par tLast) rfl rfl rfl, handleByte_frame b s]
  rfl

theorem State.xltStep_of_withDecoder :
    (s.withDecoder st acc idx par tLast).xltStep =
      s.xltStep.map fun r => (r.1, r.2.withDecoder st acc idx par tLast) := by
  have hcount : (s.withDecoder st acc idx par tLast).count = s.count := rfl
  rw [State.xltStep, State.xltStep, hcount, State.pop_of_withDecoder]
  by_cases hzero : s.count = 0
  · rw [if_pos hzero, if_pos hzero]
    rfl
  · rw [if_neg hzero, if_neg hzero]
    cases s.pop with
    | error f => rfl
    | ok r => exact congrArg Except.ok (handleByte_of_withDecoder r.2 st acc idx par tLast r.1)

/-- Which byte selects a row of the CODE class does not depend on the decoder's registers. -/
theorem exec_codeRow_of_withDecoder {i : Instr} (hrow : isCaseRow i = true) (hagent : agentOf i = .consumer) :
    exec i (s.withDecoder st acc idx par tLast) = mapNext (·.withDecoder st acc idx par tLast) (exec i s) := by
  by_cases hscan : ∃ b, scanRow b s = i
  · obtain ⟨b, rfl⟩ := hscan
    have hsame : scanRow b (s.withDecoder st acc idx par tLast) = scanRow b s := rfl
    have hexec := exec_scanRow b (s.withDecoder st acc idx par tLast)
    rw [hsame, handleByte_of_withDecoder] at hexec
    rw [hexec, exec_scanRow]
    rfl
  · have hedge : ∀ (u : State) (d : Bool), edgeRow d u ≠ i := by
      rintro u d rfl
      rw [agentOf_edgeRow] at hagent
      cases hagent
    have hscan := not_exists.1 hscan
    have hscan' : ∀ b, scanRow b (s.withDecoder st acc idx par tLast) ≠ i := hscan
    rw [unselectedRowsAreRefused s i hrow (hedge s) hscan, unselectedRowsAreRefused _ i hrow (hedge _) hscan']
    rfl

/-- The CONSUMER's operations besides INIT, and RB_COUNT, leave the decoder's registers as they find them and answer the
same whatever these hold (R106). -/
theorem exec_of_withDecoder {i : Instr} (hagent : agentOf i = .consumer ∨ agentOf i = .either) (hinit : i ≠ .init) :
    exec i (s.withDecoder st acc idx par tLast) = mapNext (·.withDecoder st acc idx par tLast) (exec i s) := by
  cases i with
  | available | rbCount | scanPrefixExt | scanPrefixBrk => rfl
  | readByte =>
    simp only [exec, execReadByte, State.pop_of_withDecoder]
    cases s.pop <;> rfl
  | rbPop =>
    simp only [exec, execRbPop, State.pop_of_withDecoder]
    cases s.pop <;> rfl
  | xltStep =>
    simp only [exec, execXltStep, State.xltStep_of_withDecoder]
    cases s.xltStep <;> rfl
  | nextChar =>
    simp only [exec, execNextChar, State.xltStep_of_withDecoder]
    cases s.xltStep with
    | error f => rfl
    | ok r =>
      obtain ⟨r, u⟩ := r
      cases r <;> rfl
  | scanCodeRelease | scanCodeExt | scanCodeNormal =>
    exact exec_codeRow_of_withDecoder s st acc idx par tLast rfl rfl
  | init => exact absurd rfl hinit
  | edge | rbPush | frame | reset => simp [agentOf] at hagent
  | edgeIdleStart | edgeIdleIgnore | edgeData | edgeParityOk | edgeParityFail | edgeStopBad | edgeStopOk =>
    simp [agentOf] at hagent

theorem exec_rbPush_of_withDecoder (b : Byte) :
    exec (.rbPush b) (s.withDecoder st acc idx par tLast) =
      mapNext (·.withDecoder st acc idx par tLast) (exec (.rbPush b) s) := by
  rw [exec_rbPush, exec_rbPush, State.push_of_withDecoder]
  cases s.push b <;> rfl

end

/-! ## The decoder's operations in Idle -/

/-- A new edge overwrites what differs, or leaves it unobservable still (R93, R94). -/
theorem execEdge_alike {s t : State} (h : s.alike t) (d : Bool) (now : Nat) :
    Out.alike (execEdge d now s) (execEdge d now t) := by
  obtain rfl | ⟨hidle, acc, idx, par, tLast, rfl⟩ := State.alike_cases h
  · exact Out.alike_refl _
  cases hen : s.en with
  | false =>
    rw [execEdge_gated d now s hen, execEdge_gated d now (s.withDecoder .idle acc idx par tLast) hen]
    exact h
  | true =>
    rw [execEdge_of_idle_or_timeout d now s hen (.inl hidle),
      execEdge_of_idle_or_timeout d now (s.withDecoder .idle acc idx par tLast) hen (.inl rfl)]
    cases d with
    | true => exact .inr ⟨rfl, rfl⟩
    | false => exact .inl rfl

theorem runEdges_alike (es : List EdgeEvent) {s t : State} (h : s.alike t) :
    Out.alike (runEdges es s) (runEdges es t) := by
  induction es generalizing s t with
  | nil => exact h
  | cons e es ih =>
    have hedge := execEdge_alike h e.d e.now
    simp only [runEdges]
    obtain ⟨u, v, hu, hv, huv⟩ | ⟨f, hs, ht⟩ | ⟨r, hs, ht⟩ := Out.alike_cases hedge
    · rw [hu, hv]
      exact ih huv
    · rw [hs, ht]
      rfl
    · rw [hs, ht]
      rfl

/-- In Idle the rows of the other three states are refused. -/
theorem exec_busyRow_of_idle {i : Instr} {s : State} (hidle : s.st = .idle) (hagent : agentOf i = .producer)
    (hrow : isCaseRow i = true) (hstart : i ≠ .edgeIdleStart) (hignore : i ≠ .edgeIdleIgnore) :
    exec i s = .refused .rowNotSelected := by
  refine unselectedRowsAreRefused s i hrow (fun d hd => ?_) (fun b hb => ?_)
  · rw [edgeRow, hidle] at hd
    cases d with
    | true => exact hignore hd.symm
    | false => exact hstart hd.symm
  · rw [← hb, agentOf_scanRow] at hagent
    cases hagent

/-- Settles O59: in Idle an edge starts a frame afresh or is ignored, the other rows are refused, INIT and RESET clear
the registers, and no other operation reads or writes them. -/
theorem idleRegistersAreUnobservable : Obligations.IdleRegistersAreUnobservable := by
  unfold Obligations.IdleRegistersAreUnobservable
  intro i s t hstart h
  obtain rfl | ⟨hidle, acc, idx, par, tLast, rfl⟩ := State.alike_cases h
  · exact Out.alike_refl _
  obtain rfl | rfl | hproducer | ⟨hinit, hagent⟩ := agent_cases i
  · cases hen : s.en with
    | true =>
      rw [exec_init_of_enabled hen, exec_init_of_enabled (s := s.withDecoder .idle acc idx par tLast) hen]
      rfl
    | false =>
      rw [exec_init_of_disabled hen, exec_init_of_disabled (s := s.withDecoder .idle acc idx par tLast) hen]
      exact State.alike_refl _
  · exact State.alike_refl _
  · obtain ⟨d, now, rfl⟩ | ⟨b, rfl⟩ | ⟨b, p, t0, dt, rfl⟩ | hrow := producer_cases hproducer
    · exact execEdge_alike h d now
    · rw [exec_rbPush_of_withDecoder]
      refine alike_mapNext_withDecoder (fun u hu => ?_) acc idx par tLast
      rw [State.push_frame (outcomeOf_next hu)]
      exact hidle
    · exact runEdges_alike _ h
    · by_cases hignore : i = .edgeIdleIgnore
      · subst hignore
        rw [exec_edgeIdleIgnore s hidle, exec_edgeIdleIgnore (s.withDecoder .idle acc idx par tLast) rfl]
        exact h
      · rw [exec_busyRow_of_idle hidle hproducer hrow hstart hignore,
          exec_busyRow_of_idle (s := s.withDecoder .idle acc idx par tLast) rfl hproducer hrow hstart hignore]
        rfl
  · rw [exec_of_withDecoder s .idle acc idx par tLast hagent hinit]
    refine alike_mapNext_withDecoder (fun u hu => ?_) acc idx par tLast
    rw [exec_consumerOnly hagent hinit hu]
    exact hidle

end Sys2Proof.Machine
